-- ==== Sys2Proof/Word.lean ====
section
/-!
DEFINITION. The byte and the word of the tcpu CORE (00_scope.md R7): a byte is 8 bits, a word is 16 bits.
-/

namespace Sys2Proof

/-- A byte: 8 bits (R7). -/
abbrev Byte := BitVec 8

/-- A word: 16 bits, the width of a register, an address and the instruction pointer (`XLEN`, R5). -/
abbrev Word := BitVec 16

end Sys2Proof
end

