-- ==== Sys2Proof/Machine/Bits.lean ====
section
/-!
DEFINITION. Byte order, zero extension and the signed reading of a word (00_scope.md R7, 20_memory.md R33).
-/

namespace Sys2Proof

/-- The word whose less significant byte is `lo`: `lo + 256 * hi` (20_memory.md R31, R33). -/
def wordOfBytes (lo hi : Byte) : Word :=
  BitVec.ofNat 16 (lo.toNat + 256 * hi.toNat)

/-- `v[7:0]` (20_memory.md R32). -/
def loByte (v : Word) : Byte :=
  BitVec.ofNat 8 v.toNat

/-- `v[15:8]` (20_memory.md R32). -/
def hiByte (v : Word) : Byte :=
  BitVec.ofNat 8 (v.toNat / 256)

/-- `zext_16(b)` (00_scope.md R7). -/
def zext16 (b : Byte) : Word :=
  b.setWidth 16

/-- `signed(v)`, two's complement (00_scope.md R7). PRESUMED: the spec supplies it from general knowledge
(93_implementation_defined.md G1, log entry 12). -/
def signed (v : Word) : Int :=
  if v.toNat < 0x8000 then (v.toNat : Int) else (v.toNat : Int) - 65536

/-- Byte `k` of a number, its least significant byte being byte 0. -/
def byteOfNat (n k : Nat) : Byte :=
  BitVec.ofNat 8 (n / 256 ^ k)

end Sys2Proof
end

