-- ==== Sys2Proof/Syntax.lean ====
section
/-!
DEFINITION. The abstract instructions of the tcpu CORE: registers, source operands, and one constructor
of `Instr` per row of spec/opcode_table.json (30_encoding.md R52, R53, R56).
-/

namespace Sys2Proof

/-- The eight registers, in the order of their operand codes 0 to 7 (10_state.md R10). -/
inductive Reg where
  | A | B | C | D | I | J | P | S
  deriving DecidableEq, Repr

/-- The two disk drives (10_state.md R21), selected by the `d` bit of an opcode (30_encoding.md R57). -/
inductive DriveId where
  | zero | one
  deriving DecidableEq, Repr

/-- A source operand (30_encoding.md R53). -/
inductive Src where
  /-- Operand codes 0 to 7: a register. -/
  | reg (r : Reg)
  /-- Operand codes 8 to 12 and 15: a literal that the code itself carries (0 to 4, or 0xFFFF). -/
  | lit (v : Word)
  /-- Operand code 13: the next byte of the instruction, zero-extended. -/
  | imm8 (b : Byte)
  /-- Operand code 14: the next word of the instruction. -/
  | imm16 (w : Word)
  deriving DecidableEq, Repr

/-- The instructions, one constructor per row of spec/opcode_table.json. A destination field is a
`Reg`, because a destination code above 7 is refused at decode (30_encoding.md R58); an unused operand
field is no part of the instruction (R60). -/
inductive Instr where
  | nop
  | ret
  | halt
  | wait
  | poll
  | add (a : Reg) (b : Src)
  | sub (a : Reg) (b : Src)
  | xor (a : Reg) (b : Src)
  | and (a : Reg) (b : Src)
  | or (a : Reg) (b : Src)
  | shl (a : Reg) (b : Src)
  | shr (a : Reg) (b : Src)
  | cmp (a : Reg) (b : Src)
  | not (a : Reg)
  | neg (a : Reg)
  | pop (a : Reg)
  | push (b : Src)
  | jmp (b : Src)
  | call (b : Src)
  | load (a : Reg) (b : Src)
  | loadOff8 (a : Reg) (b : Src) (off : Byte)
  | loadOff16 (a : Reg) (b : Src) (off : Word)
  | loadw (a : Reg) (b : Src)
  | loadwOff8 (a : Reg) (b : Src) (off : Byte)
  | loadwOff16 (a : Reg) (b : Src) (off : Word)
  | store (a b : Src)
  | storeOff8 (a b : Src) (off : Byte)
  | storeOff16 (a b : Src) (off : Word)
  | storew (a b : Src)
  | storewOff8 (a b : Src) (off : Byte)
  | storewOff16 (a b : Src) (off : Word)
  | jez (a b : Src)
  | jnz (a b : Src)
  | jl (a b : Src)
  | jg (a b : Src)
  | jle (a b : Src)
  | jge (a b : Src)
  | read0 (a b : Src)
  | read1 (a b : Src)
  | write0 (a b : Src)
  | write1 (a b : Src)
  deriving DecidableEq, Repr

/-- The 31 mnemonics (30_encoding.md R56): the keys of the cost table `COST` (00_scope.md R5). -/
inductive Mnemonic where
  | nop | ret | halt | wait | poll
  | add | sub | xor | and | or | shl | shr | cmp
  | not | neg | pop | push | jmp | call
  | load | loadw | store | storew
  | jez | jnz | jl | jg | jle | jge
  | read | write
  deriving DecidableEq, Repr

end Sys2Proof
end

