-- ==== Sys2Proof/WellFormed.lean ====
section
/-!
DEFINITION. Which instructions have an encoding. The types of `Instr` leave one thing to check: a literal
operand must be a value that an operand code carries (30_encoding.md R53).
-/

namespace Sys2Proof

/-- The values an operand code carries by itself: codes 8 to 12 give 0 to 4, code 15 gives 0xFFFF (R53). -/
def isCodeLiteral (v : Word) : Bool :=
  v.toNat ≤ 4 || v == 0xFFFF#16

/-- A source operand is well formed unless it is a literal that no operand code carries (R53). -/
def Src.wf : Src → Bool
  | .reg _ => true
  | .lit v => isCodeLiteral v
  | .imm8 _ => true
  | .imm16 _ => true

/-- An instruction is well formed when each of its source operands is. -/
def Instr.wf : Instr → Bool
  | .nop => true
  | .ret => true
  | .halt => true
  | .wait => true
  | .poll => true
  | .add _ b => b.wf
  | .sub _ b => b.wf
  | .xor _ b => b.wf
  | .and _ b => b.wf
  | .or _ b => b.wf
  | .shl _ b => b.wf
  | .shr _ b => b.wf
  | .cmp _ b => b.wf
  | .not _ => true
  | .neg _ => true
  | .pop _ => true
  | .push b => b.wf
  | .jmp b => b.wf
  | .call b => b.wf
  | .load _ b => b.wf
  | .loadOff8 _ b _ => b.wf
  | .loadOff16 _ b _ => b.wf
  | .loadw _ b => b.wf
  | .loadwOff8 _ b _ => b.wf
  | .loadwOff16 _ b _ => b.wf
  | .store a b => a.wf && b.wf
  | .storeOff8 a b _ => a.wf && b.wf
  | .storeOff16 a b _ => a.wf && b.wf
  | .storew a b => a.wf && b.wf
  | .storewOff8 a b _ => a.wf && b.wf
  | .storewOff16 a b _ => a.wf && b.wf
  | .jez a b => a.wf && b.wf
  | .jnz a b => a.wf && b.wf
  | .jl a b => a.wf && b.wf
  | .jg a b => a.wf && b.wf
  | .jle a b => a.wf && b.wf
  | .jge a b => a.wf && b.wf
  | .read0 a b => a.wf && b.wf
  | .read1 a b => a.wf && b.wf
  | .write0 a b => a.wf && b.wf
  | .write1 a b => a.wf && b.wf

end Sys2Proof
end

