-- ==== Sys2Proof/Decode.lean ====
section
/-!
DEFINITION. The encoding of 30_encoding.md: `decode`, total on any bytes, rejecting by name; then the
encoder, written from the same tables; the length column of R52; and the mnemonic of each instruction.
The opcode numbers, the formats and the order of the immediates are the spec's decision D1.
-/

namespace Sys2Proof

/-- The two illegal-instruction conditions (30_encoding.md R58, R59; 60_exceptions.md R140). -/
inductive IllegalCause where
  /-- The opcode byte is not in `OPCODE_MAP` (R59). -/
  | illegalOpcode
  /-- A destination field holds a code above 7 (R58). -/
  | illegalDestination
  deriving DecidableEq, Repr

/-! ## Operand codes (R51, R53) -/

/-- The register a code from 0 to 7 selects, in the fixed order of 10_state.md R10. -/
def Reg.ofCode (c : BitVec 4) : Option Reg :=
  match c.toNat with
  | 0 => some .A
  | 1 => some .B
  | 2 => some .C
  | 3 => some .D
  | 4 => some .I
  | 5 => some .J
  | 6 => some .P
  | 7 => some .S
  | _ => none

/-- The operand code of a register (10_state.md R10). -/
def Reg.code : Reg → BitVec 4
  | .A => 0
  | .B => 1
  | .C => 2
  | .D => 3
  | .I => 4
  | .J => 5
  | .P => 6
  | .S => 7

/-- Operand code `ca`: bits 7:4 of the operand byte (R51). -/
def codeA (ob : Byte) : BitVec 4 := BitVec.ofNat 4 (ob.toNat / 16)

/-- Operand code `cb`: bits 3:0 of the operand byte (R51). -/
def codeB (ob : Byte) : BitVec 4 := BitVec.ofNat 4 ob.toNat

/-- The operand byte that holds `ca` and `cb` (R51). -/
def operandByte (ca cb : BitVec 4) : Byte := BitVec.ofNat 8 (16 * ca.toNat + cb.toNat)

/-- The source operand that code `c` selects, its immediate (if any) starting at byte `cur` of the
instruction, and the position after it (R53, R55). -/
def srcAt (rd : Nat → Byte) (c : BitVec 4) (cur : Nat) : Src × Nat :=
  match Reg.ofCode c with
  | some r => (.reg r, cur)
  | none =>
    match c.toNat with
    | 13 => (.imm8 (rd cur), cur + 1)
    | 14 => (.imm16 (wordOfBytes (rd cur) (rd (cur + 1))), cur + 2)
    | 15 => (.lit 0xFFFF#16, cur)
    | n => (.lit (BitVec.ofNat 16 (n - 8)), cur)

/-! ## The opcode map (R52, R56, R57) -/

/-- The formats of R52, each with the instruction it builds from its decoded fields. FL and FS are
split by the offset mode (R54). -/
inductive Layout where
  | f0 (mk : Instr)
  | f2 (mk : Reg → Src → Instr)
  | f1a (mk : Reg → Instr)
  | f1b (mk : Src → Instr)
  | fj (mk : Src → Src → Instr)
  | fl (mk : Reg → Src → Instr)
  | fl8 (mk : Reg → Src → Byte → Instr)
  | fl16 (mk : Reg → Src → Word → Instr)
  | fs (mk : Src → Src → Instr)
  | fs8 (mk : Src → Src → Byte → Instr)
  | fs16 (mk : Src → Src → Word → Instr)
  | fd (mk : Src → Src → Instr)

/-- R57, class 0x0, no operand. -/
def opcodesNoOperand : List (Byte × Layout) :=
  [(0x00#8, .f0 .nop),
   (0x01#8, .f0 .ret),
   (0x02#8, .f0 .halt),
   (0x03#8, .f0 .wait),
   (0x04#8, .f0 .poll)]

/-- R57, class 0x1, two-operand ALU. -/
def opcodesAlu : List (Byte × Layout) :=
  [(0x10#8, .f2 .add),
   (0x11#8, .f2 .sub),
   (0x12#8, .f2 .xor),
   (0x13#8, .f2 .and),
   (0x14#8, .f2 .or),
   (0x15#8, .f2 .shl),
   (0x16#8, .f2 .shr),
   (0x17#8, .f2 .cmp)]

/-- R57, class 0x2, one operand. -/
def opcodesOneOperand : List (Byte × Layout) :=
  [(0x20#8, .f1a .not),
   (0x21#8, .f1a .neg),
   (0x22#8, .f1a .pop),
   (0x23#8, .f1b .push),
   (0x24#8, .f1b .jmp),
   (0x25#8, .f1b .call)]

/-- R57, class 0x3, memory. -/
def opcodesMemory : List (Byte × Layout) :=
  [(0x30#8, .fl .load),
   (0x31#8, .fl8 .loadOff8),
   (0x32#8, .fl16 .loadOff16),
   (0x34#8, .fl .loadw),
   (0x35#8, .fl8 .loadwOff8),
   (0x36#8, .fl16 .loadwOff16),
   (0x38#8, .fs .store),
   (0x39#8, .fs8 .storeOff8),
   (0x3A#8, .fs16 .storeOff16),
   (0x3C#8, .fs .storew),
   (0x3D#8, .fs8 .storewOff8),
   (0x3E#8, .fs16 .storewOff16)]

/-- R57, class 0x4, conditional jump. -/
def opcodesJump : List (Byte × Layout) :=
  [(0x40#8, .fj .jez),
   (0x41#8, .fj .jnz),
   (0x42#8, .fj .jl),
   (0x43#8, .fj .jg),
   (0x44#8, .fj .jle),
   (0x45#8, .fj .jge)]

/-- R57, class 0x5, disk. -/
def opcodesDisk : List (Byte × Layout) :=
  [(0x50#8, .fd .read0),
   (0x51#8, .fd .read1),
   (0x52#8, .fd .write0),
   (0x53#8, .fd .write1)]

/-- `OPCODE_MAP` (R56): the 41 opcode bytes that are instructions. -/
def opcodeMap : List (Byte × Layout) :=
  opcodesNoOperand ++ opcodesAlu ++ opcodesOneOperand ++ opcodesMemory ++ opcodesJump ++ opcodesDisk

/-- What `OPCODE_MAP` gives for an opcode byte; none for the 215 invalid ones (R59). -/
def layoutOf (op : Byte) : Option Layout :=
  opcodeMap.lookup op

/-! ## Decode (R55) -/

/-- The check of R58: a destination field must hold a register code. It is made before any immediate
is consumed. -/
def withDest (ob : Byte) (k : Reg → Instr × Nat) : Except IllegalCause (Instr × Nat) :=
  match Reg.ofCode (codeA ob) with
  | some r => .ok (k r)
  | none => .error .illegalDestination

/-- The immediates of `a` and then `b` (R55): both operands and the position after them. -/
def srcPairAt (rd : Nat → Byte) (ob : Byte) : Src × Src × Nat :=
  let a := srcAt rd (codeA ob) 2
  let b := srcAt rd (codeB ob) a.2
  (a.1, b.1, b.2)

/-- The fields of one format, read from the operand byte `ob` and the bytes after it (R52, R54, R55). -/
def decodeLayout (rd : Nat → Byte) (ob : Byte) : Layout → Except IllegalCause (Instr × Nat)
  | .f0 i => .ok (i, 1)
  | .f2 mk => withDest ob fun a => let b := srcAt rd (codeB ob) 2; (mk a b.1, b.2)
  | .f1a mk => withDest ob fun a => (mk a, 2)
  | .f1b mk => let b := srcAt rd (codeB ob) 2; .ok (mk b.1, b.2)
  | .fj mk => let p := srcPairAt rd ob; .ok (mk p.1 p.2.1, p.2.2)
  | .fl mk => withDest ob fun a => let b := srcAt rd (codeB ob) 2; (mk a b.1, b.2)
  | .fl8 mk => withDest ob fun a => let b := srcAt rd (codeB ob) 2; (mk a b.1 (rd b.2), b.2 + 1)
  | .fl16 mk => withDest ob fun a =>
      let b := srcAt rd (codeB ob) 2
      (mk a b.1 (wordOfBytes (rd b.2) (rd (b.2 + 1))), b.2 + 2)
  | .fs mk => let p := srcPairAt rd ob; .ok (mk p.1 p.2.1, p.2.2)
  | .fs8 mk => let p := srcPairAt rd ob; .ok (mk p.1 p.2.1 (rd p.2.2), p.2.2 + 1)
  | .fs16 mk =>
      let p := srcPairAt rd ob
      .ok (mk p.1 p.2.1 (wordOfBytes (rd p.2.2) (rd (p.2.2 + 1))), p.2.2 + 2)
  | .fd mk => let p := srcPairAt rd ob; .ok (mk p.1 p.2.1, p.2.2)

/-- Decode (R55). `rd k` is the byte at offset `k` from the opcode byte. The answer is the instruction and
its length in bytes, or the illegal-instruction cause. -/
def decode (rd : Nat → Byte) : Except IllegalCause (Instr × Nat) :=
  match layoutOf (rd 0) with
  | none => .error .illegalOpcode
  | some l => decodeLayout rd (rd 1) l

/-- Decode a list of bytes, lowest address first; the bytes after its end count as 0x00. -/
def decodeBytes (bs : List Byte) : Except IllegalCause (Instr × Nat) :=
  decode fun k => bs.getD k 0#8

/-- Byte `k` of an instruction whose low `nbits` bits are those of `w` and whose other bits are 0
(bit 0 is the least significant bit of the first byte). -/
def tableByte (nbits w k : Nat) : Byte :=
  byteOfNat (w % 2 ^ nbits) k

/-- The instruction the decoder reads from the bits `w` of an opcode-table row of `nbits` bits. -/
def decodeTableWord (nbits w : Nat) : Option Instr :=
  match decode (tableByte nbits w) with
  | .ok (i, _) => some i
  | .error _ => none

/-! ## Encode (R50 to R56) -/

/-- The operand code of a source operand (R53). -/
def Src.code : Src → BitVec 4
  | .reg r => r.code
  | .lit v => if v = 0xFFFF#16 then 15#4 else BitVec.ofNat 4 (8 + v.toNat)
  | .imm8 _ => 13#4
  | .imm16 _ => 14#4

/-- The immediate bytes of a source operand (R53). -/
def Src.bytes : Src → List Byte
  | .reg _ => []
  | .lit _ => []
  | .imm8 b => [b]
  | .imm16 w => [loByte w, hiByte w]

/-- `imm(c)` of R52: how many immediate bytes a source operand takes. -/
def Src.immLen : Src → Nat
  | .reg _ => 0
  | .lit _ => 0
  | .imm8 _ => 1
  | .imm16 _ => 2

/-- The source operand an assembler writes for a value: the choice of operand code of R65, the shortest one. -/
def Src.ofValue (v : Word) : Src :=
  if v.toNat ≤ 4 then .lit v
  else if v = 0xFFFF#16 then .lit v
  else if v.toNat ≤ 255 then .imm8 (BitVec.ofNat 8 v.toNat)
  else .imm16 v

/-- The bytes of an instruction, lowest address first (R50). An unused operand field is written as 0,
as the assembler does (R60). -/
def encode : Instr → List Byte
  | .nop => [0x00#8]
  | .ret => [0x01#8]
  | .halt => [0x02#8]
  | .wait => [0x03#8]
  | .poll => [0x04#8]
  | .add a b => 0x10#8 :: operandByte a.code b.code :: b.bytes
  | .sub a b => 0x11#8 :: operandByte a.code b.code :: b.bytes
  | .xor a b => 0x12#8 :: operandByte a.code b.code :: b.bytes
  | .and a b => 0x13#8 :: operandByte a.code b.code :: b.bytes
  | .or a b => 0x14#8 :: operandByte a.code b.code :: b.bytes
  | .shl a b => 0x15#8 :: operandByte a.code b.code :: b.bytes
  | .shr a b => 0x16#8 :: operandByte a.code b.code :: b.bytes
  | .cmp a b => 0x17#8 :: operandByte a.code b.code :: b.bytes
  | .not a => [0x20#8, operandByte a.code 0#4]
  | .neg a => [0x21#8, operandByte a.code 0#4]
  | .pop a => [0x22#8, operandByte a.code 0#4]
  | .push b => 0x23#8 :: operandByte 0#4 b.code :: b.bytes
  | .jmp b => 0x24#8 :: operandByte 0#4 b.code :: b.bytes
  | .call b => 0x25#8 :: operandByte 0#4 b.code :: b.bytes
  | .load a b => 0x30#8 :: operandByte a.code b.code :: b.bytes
  | .loadOff8 a b f => 0x31#8 :: operandByte a.code b.code :: (b.bytes ++ [f])
  | .loadOff16 a b f => 0x32#8 :: operandByte a.code b.code :: (b.bytes ++ [loByte f, hiByte f])
  | .loadw a b => 0x34#8 :: operandByte a.code b.code :: b.bytes
  | .loadwOff8 a b f => 0x35#8 :: operandByte a.code b.code :: (b.bytes ++ [f])
  | .loadwOff16 a b f => 0x36#8 :: operandByte a.code b.code :: (b.bytes ++ [loByte f, hiByte f])
  | .store a b => 0x38#8 :: operandByte a.code b.code :: (a.bytes ++ b.bytes)
  | .storeOff8 a b f => 0x39#8 :: operandByte a.code b.code :: (a.bytes ++ b.bytes ++ [f])
  | .storeOff16 a b f => 0x3A#8 :: operandByte a.code b.code :: (a.bytes ++ b.bytes ++ [loByte f, hiByte f])
  | .storew a b => 0x3C#8 :: operandByte a.code b.code :: (a.bytes ++ b.bytes)
  | .storewOff8 a b f => 0x3D#8 :: operandByte a.code b.code :: (a.bytes ++ b.bytes ++ [f])
  | .storewOff16 a b f => 0x3E#8 :: operandByte a.code b.code :: (a.bytes ++ b.bytes ++ [loByte f, hiByte f])
  | .jez a b => 0x40#8 :: operandByte a.code b.code :: (a.bytes ++ b.bytes)
  | .jnz a b => 0x41#8 :: operandByte a.code b.code :: (a.bytes ++ b.bytes)
  | .jl a b => 0x42#8 :: operandByte a.code b.code :: (a.bytes ++ b.bytes)
  | .jg a b => 0x43#8 :: operandByte a.code b.code :: (a.bytes ++ b.bytes)
  | .jle a b => 0x44#8 :: operandByte a.code b.code :: (a.bytes ++ b.bytes)
  | .jge a b => 0x45#8 :: operandByte a.code b.code :: (a.bytes ++ b.bytes)
  | .read0 a b => 0x50#8 :: operandByte a.code b.code :: (a.bytes ++ b.bytes)
  | .read1 a b => 0x51#8 :: operandByte a.code b.code :: (a.bytes ++ b.bytes)
  | .write0 a b => 0x52#8 :: operandByte a.code b.code :: (a.bytes ++ b.bytes)
  | .write1 a b => 0x53#8 :: operandByte a.code b.code :: (a.bytes ++ b.bytes)

/-- The length in bytes of an instruction: the length column of R52. -/
def Instr.length : Instr → Nat
  | .nop => 1
  | .ret => 1
  | .halt => 1
  | .wait => 1
  | .poll => 1
  | .add _ b => 2 + b.immLen
  | .sub _ b => 2 + b.immLen
  | .xor _ b => 2 + b.immLen
  | .and _ b => 2 + b.immLen
  | .or _ b => 2 + b.immLen
  | .shl _ b => 2 + b.immLen
  | .shr _ b => 2 + b.immLen
  | .cmp _ b => 2 + b.immLen
  | .not _ => 2
  | .neg _ => 2
  | .pop _ => 2
  | .push b => 2 + b.immLen
  | .jmp b => 2 + b.immLen
  | .call b => 2 + b.immLen
  | .load _ b => 2 + b.immLen
  | .loadOff8 _ b _ => 2 + b.immLen + 1
  | .loadOff16 _ b _ => 2 + b.immLen + 2
  | .loadw _ b => 2 + b.immLen
  | .loadwOff8 _ b _ => 2 + b.immLen + 1
  | .loadwOff16 _ b _ => 2 + b.immLen + 2
  | .store a b => 2 + a.immLen + b.immLen
  | .storeOff8 a b _ => 2 + a.immLen + b.immLen + 1
  | .storeOff16 a b _ => 2 + a.immLen + b.immLen + 2
  | .storew a b => 2 + a.immLen + b.immLen
  | .storewOff8 a b _ => 2 + a.immLen + b.immLen + 1
  | .storewOff16 a b _ => 2 + a.immLen + b.immLen + 2
  | .jez a b => 2 + a.immLen + b.immLen
  | .jnz a b => 2 + a.immLen + b.immLen
  | .jl a b => 2 + a.immLen + b.immLen
  | .jg a b => 2 + a.immLen + b.immLen
  | .jle a b => 2 + a.immLen + b.immLen
  | .jge a b => 2 + a.immLen + b.immLen
  | .read0 a b => 2 + a.immLen + b.immLen
  | .read1 a b => 2 + a.immLen + b.immLen
  | .write0 a b => 2 + a.immLen + b.immLen
  | .write1 a b => 2 + a.immLen + b.immLen

/-- The mnemonic of an instruction (R56): the three offset forms of a memory instruction share one, and
so do the two drives of a disk instruction. -/
def Instr.mnemonic : Instr → Mnemonic
  | .nop => .nop
  | .ret => .ret
  | .halt => .halt
  | .wait => .wait
  | .poll => .poll
  | .add _ _ => .add
  | .sub _ _ => .sub
  | .xor _ _ => .xor
  | .and _ _ => .and
  | .or _ _ => .or
  | .shl _ _ => .shl
  | .shr _ _ => .shr
  | .cmp _ _ => .cmp
  | .not _ => .not
  | .neg _ => .neg
  | .pop _ => .pop
  | .push _ => .push
  | .jmp _ => .jmp
  | .call _ => .call
  | .load _ _ => .load
  | .loadOff8 _ _ _ => .load
  | .loadOff16 _ _ _ => .load
  | .loadw _ _ => .loadw
  | .loadwOff8 _ _ _ => .loadw
  | .loadwOff16 _ _ _ => .loadw
  | .store _ _ => .store
  | .storeOff8 _ _ _ => .store
  | .storeOff16 _ _ _ => .store
  | .storew _ _ => .storew
  | .storewOff8 _ _ _ => .storew
  | .storewOff16 _ _ _ => .storew
  | .jez _ _ => .jez
  | .jnz _ _ => .jnz
  | .jl _ _ => .jl
  | .jg _ _ => .jg
  | .jle _ _ => .jle
  | .jge _ _ => .jge
  | .read0 _ _ => .read
  | .read1 _ _ => .read
  | .write0 _ _ => .write
  | .write1 _ _ => .write

end Sys2Proof
end

