-- ==== Sys2Proof/Config.lean ====
section
/-!
DEFINITION. What an implementation fixes: the parameters of 00_scope.md R5. The parameters that the spec
gives a value are constants here. Those it leaves OPEN ("the model takes it as an argument") are the record
`Params`, which State carries and no step changes; the values State.reset gives them are opaque constants
without a body (log entry 1), so no proof can lean on one.
-/

namespace Sys2Proof.Config

/-- `MEM_SIZE`: bytes of guest memory (R5, 20_memory.md R30). -/
def memSize : Nat := 65536

/-- `IMAGE_BYTES`: bytes of one disk image (R5). -/
def imageBytes : Nat := 1048576

/-- `TRANSFER_BYTES`: bytes moved by one transfer (R5). -/
def transferBytes : Nat := 4096

/-- `DISK_ADDR_SCALE`: bytes per unit of the disk-address operand (R5). -/
def diskAddrScale : Nat := 16

/-- `IDLE_MAX`: the saturation value of a drive's idle counter (R5, decision D23). -/
def idleMax : Nat := 2147483647

/-- `RESET_IP`: the instruction pointer after reset (R5, decision D6). -/
def resetIp : Word := 0x0000#16

/-- The longest instruction, in bytes (30_encoding.md R52). -/
def maxInstrBytes : Nat := 8

/-- Framebuffer geometry: `SCREEN_BASE`, `SCREEN_WIDTH`, `SCREEN_HEIGHT` (R5). -/
structure Screen where
  base : Nat
  width : Nat
  height : Nat
  deriving DecidableEq, Repr, Inhabited

/-- The constraint of R5: the framebuffer lies inside guest memory. -/
abbrev Screen.fits (s : Screen) : Prop := s.base + s.width * s.height ≤ memSize

/-- The OPEN parameters of R5. -/
structure Params where
  /-- `DISK_TRANSFER_CYCLES`. -/
  diskTransferCycles : Nat
  /-- `REFRESH_PERIOD`. -/
  refreshPeriod : Nat
  /-- `CYCLE_RATE`; only the host-side drive-active indicator reads it (60_exceptions.md R164). -/
  cycleRate : Nat
  /-- `SCREEN_BASE`, `SCREEN_WIDTH`, `SCREEN_HEIGHT`. -/
  screen : Screen
  /-- `BOOT_IMAGE`: what guest memory holds after reset, in the form of Machine/Memory.lean. -/
  bootImage : List Host.Cell
  /-- `COST`: the mnemonics whose cost is not the default 1 (decision D12, log entry 4). -/
  cost : List (Mnemonic × Nat)
  deriving DecidableEq, Repr

/-- DESIGN CHOICE (log entry 1): the disk transfer time after reset. OPEN in the spec, so opaque. -/
opaque diskTransferCycles : PNat

/-- DESIGN CHOICE (log entry 1): the refresh period after reset. OPEN in the spec, so opaque. -/
opaque refreshPeriod : PNat

/-- DESIGN CHOICE (log entry 1): the nominal cycle rate after reset. OPEN in the spec, so opaque. -/
opaque cycleRate : Nat

/-- DESIGN CHOICE (log entry 1): the framebuffer geometry, before the constraint of R5 is imposed. -/
opaque rawScreen : Screen

/-- The framebuffer geometry after reset: `rawScreen` if it meets the constraint of R5, else an empty one. -/
def screen : Screen := if rawScreen.fits then rawScreen else ⟨0, 0, 0⟩

/-- The parameters State.reset carries (log entries 1, 2 and 4). -/
def resetParams : Params where
  diskTransferCycles := diskTransferCycles.val
  refreshPeriod := refreshPeriod.val
  cycleRate := cycleRate
  screen := screen
  bootImage := []
  cost := []

end Sys2Proof.Config
end

