-- ==== Sys2Proof/Machine/State.lean ====
section
/-!
DEFINITION. The state of the tcpu CORE (10_state.md R10 to R26), as plain data, and its value after reset.
`Fault` and `Refusal` are the ways a step could stop; on this hardware none is reached.
-/

namespace Sys2Proof.Machine

/-- A memory or a disk image: its listed bytes, in the canonical form `Memory.wf` of Machine/Memory.lean. -/
abbrev Memory := List Host.Cell

/-- The register file: `x[0]` to `x[7]`, named A B C D I J P S (R10). Read and written only through
`State.reg` and `State.setReg`. -/
structure Regs where
  a : Word
  b : Word
  c : Word
  d : Word
  i : Word
  j : Word
  p : Word
  s : Word
  deriving DecidableEq, Repr

/-- The run state (R15). -/
inductive Mode where
  | running
  | halted
  | waitingForEvent
  deriving DecidableEq, Repr

/-- Why the core is Halted (R16); `none` in every other mode. -/
inductive HaltCause where
  | none
  | haltInstruction
  | illegalOpcode
  | illegalDestination
  deriving DecidableEq, Repr

/-- The kinds of event (R18). -/
inductive EventKind where
  | none
  | keyUp
  | keyDown
  | screenRefresh
  | disk0Finished
  | disk1Finished
  deriving DecidableEq, Repr

/-- The event slot: `ev.kind` and `ev.payload` (R17). -/
structure Event where
  kind : EventKind
  payload : Word
  deriving DecidableEq, Repr

/-- The direction of a transfer (R21): `rd` from disk to memory, `wr` from memory to disk. -/
inductive Dir where
  | rd
  | wr
  deriving DecidableEq, Repr

/-- The in-flight transfer of a drive (R21). -/
inductive Xfer where
  | idle
  | busy (dir : Dir) (started : Nat) (memAddr : Word) (diskAddr : Word)
  deriving DecidableEq, Repr

/-- The record of one drive (R21). -/
structure Drive where
  present : Bool
  image : Memory
  dirty : Bool
  readonly : Bool
  xfer : Xfer
  idle : Nat
  deriving DecidableEq, Repr

/-- The whole state. `params` is the model's own field: the OPEN parameters of 00_scope.md R5, which no
step and no host operation changes (R27, log entry 1). -/
structure State where
  regs : Regs
  ip : Word
  mode : Mode
  haltCause : HaltCause
  ev : Event
  clock : Nat
  mem : Memory
  drive0 : Drive
  drive1 : Drive
  keys : List Word
  params : Config.Params
  deriving DecidableEq, Repr

/-- Reasons for a step to stop with a fault. There is none: no access faults (20_memory.md R30, R34) and the
one exception of the machine, the illegal instruction, ends in a next state (60_exceptions.md R141, log
entry 8). -/
inductive Fault where
  deriving DecidableEq, Repr

/-- Reasons for an instruction to be refused. -/
inductive Refusal where
  /-- Raised by an arm of `exec` whose instruction has no meaning yet; no arm raises it. Safe: the model
  stops where the hardware goes on. -/
  | notModelled (mnemonic : String)
  deriving DecidableEq, Repr

/-- A drive after `initialize()` (R26): unbound, clean, writable, Idle, its image zeroed, its idle counter
at `IDLE_MAX`. -/
def Drive.reset : Drive where
  present := false
  image := []
  dirty := false
  readonly := false
  xfer := .idle
  idle := Config.idleMax

/-- The machine right after reset: the state after `initialize()` (R26). `BOOT_IMAGE` is OPEN; here no byte
of memory is listed (log entries 2 and 3). -/
def State.reset : State where
  regs := ⟨0, 0, 0, 0, 0, 0, 0, 0⟩
  ip := Config.resetIp
  mode := .running
  haltCause := .none
  ev := ⟨.none, 0⟩
  clock := 0
  mem := Config.resetParams.bootImage
  drive0 := Drive.reset
  drive1 := Drive.reset
  keys := []
  params := Config.resetParams

end Sys2Proof.Machine
end

