-- ==== Sys2Proof/Machine/Memory.lean ====
section
/-!
DEFINITION. Guest memory and the disk images as sparse lists of bytes: what an unlisted address reads as,
the canonical form, reading and writing one byte, and the block copy of 20_memory.md R39.
-/

namespace Sys2Proof.Machine

/-- What an address that memory does not list reads as. DESIGN CHOICE (log entry 2): the spec leaves
`BOOT_IMAGE` OPEN; 0x00 is what `initialize` puts in a disk image (10_state.md R26). -/
def unlistedByte : Byte := 0x00#8

/-- The canonical form of a memory of `size` bytes: addresses strictly rising and below `size`, and no entry
equal to what an unlisted address reads as. -/
abbrev Memory.wf (size : Nat) (m : Memory) : Prop :=
  m.Pairwise (fun c c' => c.1 < c'.1) ∧ ∀ c ∈ m, c.1 < size ∧ c.2 ≠ unlistedByte

/-- The byte at address `a`. -/
def Memory.read : Memory → Nat → Byte
  | [], _ => unlistedByte
  | (k, v) :: m, a => if k = a then v else Memory.read m a

/-- Put a listed byte in its place. -/
def Memory.insert : Memory → Nat → Byte → Memory
  | [], a, v => [(a, v)]
  | (k, w) :: m, a, v =>
    if a < k then (a, v) :: (k, w) :: m
    else if a = k then (a, v) :: m
    else (k, w) :: Memory.insert m a v

/-- Write one byte. Writing what an unlisted address reads as removes the entry. -/
def Memory.write (m : Memory) (a : Nat) (v : Byte) : Memory :=
  if v = unlistedByte then m.filter (fun c => c.1 ≠ a) else m.insert a v

/-- The block copy of 20_memory.md R39, its first `n` bytes in increasing order: byte
`(srcBase + i) mod srcSize` of `src` goes to address `(dstBase + i) mod dstSize`. -/
def copyBlock (src : Memory) (srcBase srcSize dstBase dstSize : Nat) : Nat → Memory → Memory
  | 0, dst => dst
  | n + 1, dst =>
    (copyBlock src srcBase srcSize dstBase dstSize n dst).write ((dstBase + n) % dstSize)
      (src.read ((srcBase + n) % srcSize))

end Sys2Proof.Machine
end

