-- ==== Sys2Proof/Machine/Ops.lean ====
section
/-!
DEFINITION. The named operations over registers, memory, the stack, the event slot and the drives, and TAKING
THE ONE EXCEPTION of this machine. Every instruction's meaning is written over these.
-/

namespace Sys2Proof.Machine

/-! ## Registers (10_state.md R10, R11) -/

/-- `x[i]`: read a register. No register is hard-wired (R11). -/
def State.reg (s : State) : Reg → Word
  | .A => s.regs.a
  | .B => s.regs.b
  | .C => s.regs.c
  | .D => s.regs.d
  | .I => s.regs.i
  | .J => s.regs.j
  | .P => s.regs.p
  | .S => s.regs.s

/-- The register file with one register replaced. -/
def Regs.put (x : Regs) (r : Reg) (v : Word) : Regs :=
  match r with
  | .A => { x with a := v }
  | .B => { x with b := v }
  | .C => { x with c := v }
  | .D => { x with d := v }
  | .I => { x with i := v }
  | .J => { x with j := v }
  | .P => { x with p := v }
  | .S => { x with s := v }

/-- `x[i] <- v`: write a register. -/
def State.setReg (s : State) (r : Reg) (v : Word) : State :=
  { s with regs := s.regs.put r v }

/-- `ip <- t` (10_state.md R12). -/
def State.setIp (s : State) (t : Word) : State :=
  { s with ip := t }

/-! ## Guest memory (20_memory.md R30 to R34) -/

/-- `MemRead(addr, 1)` (R31). -/
def State.readByte (s : State) (a : Word) : Byte :=
  s.mem.read a.toNat

/-- `MemRead(addr, 2)` (R31): little-endian, the second byte at `(addr + 1) mod 2^16`. -/
def State.readWord (s : State) (a : Word) : Word :=
  wordOfBytes (s.readByte a) (s.readByte (a + 1))

/-- `MemWrite(addr, 1, v)` (R32). -/
def State.writeByte (s : State) (a : Word) (v : Byte) : State :=
  { s with mem := s.mem.write a.toNat v }

/-- `MemWrite(addr, 2, v)` (R32): `v[7:0]` at `addr`, then `v[15:8]` at `(addr + 1) mod 2^16`. -/
def State.writeWord (s : State) (a : Word) (v : Word) : State :=
  (s.writeByte a (loByte v)).writeByte (a + 1) (hiByte v)

/-! ## The stack (42_stack_and_control_transfer.md R99) -/

/-- Store a word at S, then decrement S by 2 (R99, R102). -/
def State.pushWord (s : State) (v : Word) : State :=
  (s.writeWord (s.reg .S) v).setReg .S (s.reg .S - 2)

/-- Increment S by 2 (R99): the first half of `pop` and `ret`. -/
def State.raiseStack (s : State) : State :=
  s.setReg .S (s.reg .S + 2)

/-- The word that S addresses: the second half of `pop` and `ret` (R100, R101). -/
def State.stackTop (s : State) : Word :=
  s.readWord (s.reg .S)

/-! ## Events (60_exceptions.md R144 to R147) -/

/-- The number that register A receives for a kind (10_state.md R18). -/
def EventKind.code : EventKind → Word
  | .none => 0
  | .keyUp => 1
  | .keyDown => 2
  | .screenRefresh => 3
  | .disk0Finished => 4
  | .disk1Finished => 5

/-- The empty slot (10_state.md R17). -/
def Event.empty : Event := ⟨.none, 0⟩

/-- `Post(kind, payload)`: overwrite the slot, whatever it holds (R145). -/
def State.post (s : State) (k : EventKind) (payload : Word) : State :=
  { s with ev := ⟨k, payload⟩ }

/-- Consumption (R146): A and B receive the slot's kind and payload, and the slot is emptied. -/
def State.consume (s : State) : State :=
  { (s.setReg .A s.ev.kind.code).setReg .B s.ev.payload with ev := Event.empty }

/-! ## Drives (10_state.md R19, R21) -/

/-- The record of drive `d`. -/
def State.drive (s : State) : DriveId → Drive
  | .zero => s.drive0
  | .one => s.drive1

/-- Replace the record of drive `d`. -/
def State.setDrive (s : State) (d : DriveId) (r : Drive) : State :=
  match d with
  | .zero => { s with drive0 := r }
  | .one => { s with drive1 := r }

/-- `disk_finished(d)`: the event kind of drive `d` (R18, 44_disk_io.md R130). -/
def diskFinished : DriveId → EventKind
  | .zero => .disk0Finished
  | .one => .disk1Finished

/-- The disk results (10_state.md R19). -/
inductive DiskResult where
  | success
  | notPresent
  | diskBusy
  | notWriteable
  deriving DecidableEq, Repr

/-- The numeric codes of the disk results (10_state.md R19). -/
def DiskResult.code : DiskResult → Word
  | .success => 0
  | .notPresent => 1
  | .diskBusy => 2
  | .notWriteable => 3

/-- Post the disk-finished event of drive `d` with a result as its payload. -/
def State.postDisk (s : State) (d : DriveId) (r : DiskResult) : State :=
  s.post (diskFinished d) r.code

/-! ## Stopping, and taking the exception -/

/-- Enter Halted with a cause (10_state.md R15, R16). -/
def State.stop (s : State) (c : HaltCause) : State :=
  { s with mode := .halted, haltCause := c }

/-- The halt cause that records an illegal-instruction condition (60_exceptions.md R140). -/
def haltCauseOf : IllegalCause → HaltCause
  | .illegalOpcode => .illegalOpcode
  | .illegalDestination => .illegalDestination

/-- TAKING THE EXCEPTION: `raise IllegalInstruction(cause)` (60_exceptions.md R141). The core enters Halted, the
cause is recorded, and nothing else changes: `ip` stays at the opcode byte, no register, no memory, no event.
There is no return from it beside it here: no state is saved and no instruction returns; the only way out of
Halted is the host's reset (R143), `resetMachine` of Machine/HostInterface.lean. -/
def State.raiseIllegal (s : State) (c : IllegalCause) : State :=
  s.stop (haltCauseOf c)

end Sys2Proof.Machine
end

