-- ==== Sys2Proof/Machine/Operands.lean ====
section
/-!
DEFINITION. The value of an operand (30_encoding.md R53) and the effective address of a memory instruction
(R54, 43_memory_access.md R120). These are all the operand forms of the machine.
-/

namespace Sys2Proof.Machine

/-- `val(c)`: the value of a source operand in a state (30_encoding.md R53). No immediate is sign-extended. -/
def State.val (s : State) : Src → Word
  | .reg r => s.reg r
  | .lit v => v
  | .imm8 b => zext16 b
  | .imm16 w => w

/-- The effective address `(base + off) mod 2^16` (43_memory_access.md R120). `off` is 0 without an offset, the
zero-extended byte or the word with one (30_encoding.md R54). -/
def State.effAddr (s : State) (base : Src) (off : Word) : Word :=
  s.val base + off

end Sys2Proof.Machine
end

