-- ==== Sys2Proof/Machine/Flags.lean ====
section
/-!
DEFINITION. This machine has no flags (10_state.md R13). What takes their place: the three-way result that
`cmp` writes into a register (41_alu.md R88) and the equality tests of the conditional jumps
(42_stack_and_control_transfer.md R105 to R111).
-/

namespace Sys2Proof.Machine

/-- The result of `cmp`: 0x0001, 0x0000 or 0xFFFF as the first operand is greater than, equal to or less than
the second, both read as signed numbers (41_alu.md R88). -/
def compareResult (x y : Word) : Word :=
  if signed x > signed y then 0x0001#16
  else if signed x = signed y then 0x0000#16
  else 0xFFFF#16

/-- `jez`: the tested value is 0x0000 (R106). -/
def isZero (t : Word) : Bool := t == 0x0000#16

/-- `jnz`: the tested value is not 0x0000 (R107). -/
def isNonZero (t : Word) : Bool := t != 0x0000#16

/-- `jl`: the tested value is 0xFFFF (R108). -/
def isLess (t : Word) : Bool := t == 0xFFFF#16

/-- `jg`: the tested value is 0x0001 (R109). -/
def isGreater (t : Word) : Bool := t == 0x0001#16

/-- `jle`: the tested value is 0xFFFF or 0x0000 (R110). -/
def isLessOrEqual (t : Word) : Bool := t == 0xFFFF#16 || t == 0x0000#16

/-- `jge`: the tested value is 0x0001 or 0x0000 (R111). -/
def isGreaterOrEqual (t : Word) : Bool := t == 0x0001#16 || t == 0x0000#16

end Sys2Proof.Machine
end

