-- ==== Sys2Proof/Machine/Devices.lean ====
section
/-!
DEFINITION. The devices of one cycle: the refresh timer and the disk controller, which act only inside `Tick`
(60_exceptions.md R151, R154, R160 to R162).
-/

namespace Sys2Proof.Machine

/-- The refresh timer (R151, R154): when the clock is a multiple of `REFRESH_PERIOD`, `Post(screen-refresh, 0)`. -/
def State.refreshTimer (s : State) : State :=
  { s with ev := if s.clock % s.params.refreshPeriod = 0 then ⟨.screenRefresh, 0⟩ else s.ev }

/-- The bytes of a `read` transfer land in guest memory (R39, R161). -/
def State.copyIn (s : State) (d : DriveId) (ma da : Word) : State :=
  { s with
    mem := copyBlock (s.drive d).image (da.toNat * Config.diskAddrScale) Config.imageBytes
      ma.toNat Config.memSize Config.transferBytes s.mem }

/-- The bytes of a `write` transfer land in the image, and the drive is dirty (R39, R161). -/
def State.copyOut (s : State) (d : DriveId) (ma da : Word) : State :=
  s.setDrive d
    { s.drive d with
      image := copyBlock s.mem ma.toNat Config.memSize
        (da.toNat * Config.diskAddrScale) Config.imageBytes Config.transferBytes (s.drive d).image
      dirty := true }

/-- The drive leaves Busy and its idle counter starts again (R161, R162). -/
def State.endTransfer (s : State) (d : DriveId) : State :=
  s.setDrive d { s.drive d with xfer := .idle, idle := 0 }

/-- `Complete(d)` of a transfer with direction `dir`, memory address `ma` and disk address `da` (R161). -/
def State.complete (s : State) (d : DriveId) (dir : Dir) (ma da : Word) : State :=
  let copied := match dir with
    | .rd => s.copyIn d ma da
    | .wr => s.copyOut d ma da
  (copied.endTransfer d).postDisk d .success

/-- One drive in one `Tick` (R151): complete when due, or count idle time, saturating (R162). -/
def State.driveTick (s : State) (d : DriveId) : State :=
  match (s.drive d).xfer with
  | .busy dir started ma da =>
    if s.params.diskTransferCycles ≤ s.clock - started then s.complete d dir ma da else s
  | .idle => s.setDrive d { s.drive d with idle := min ((s.drive d).idle + 1) Config.idleMax }

/-- `Tick()` (R151): clock, refresh timer, drive 0, drive 1, in this order. -/
def State.tick (s : State) : State :=
  ((({ s with clock := s.clock + 1 } : State).refreshTimer).driveTick .zero).driveTick .one

/-- `repeat c times: Tick()` (R153). -/
def State.ticks : Nat → State → State
  | 0, s => s
  | c + 1, s => State.ticks c s.tick

end Sys2Proof.Machine
end

