-- ==== Sys2Proof/Machine/Alu.lean ====
section
/-!
DEFINITION. add sub xor and or shl shr cmp not neg (41_alu.md). Both sources are read before the destination is
written (R80); only the destination register changes.
-/

namespace Sys2Proof.Machine

/-- `(x * 2^n) mod 2^16` for n < 16, else 0 (41_alu.md R86). -/
def shiftLeft (x n : Word) : Word :=
  if n.toNat < 16 then BitVec.ofNat 16 (x.toNat * 2 ^ n.toNat) else 0#16

/-- `floor(x / 2^n)` for n < 16, else 0 (41_alu.md R87). -/
def shiftRight (x n : Word) : Word :=
  if n.toNat < 16 then BitVec.ofNat 16 (x.toNat / 2 ^ n.toNat) else 0#16

/-- A two-operand instruction: `x[ca] <- f (x[ca]) (val(cb))` (41_alu.md R80). -/
def State.alu2 (s : State) (f : Word → Word → Word) (a : Reg) (b : Src) : State :=
  s.setReg a (f (s.reg a) (s.val b))

/-- R81. -/
def execAdd (a : Reg) (b : Src) (s : State) : Host.Outcome State Fault Refusal :=
  .next (s.alu2 (fun x y => x + y) a b)

/-- R82. -/
def execSub (a : Reg) (b : Src) (s : State) : Host.Outcome State Fault Refusal :=
  .next (s.alu2 (fun x y => x - y) a b)

/-- R83. -/
def execXor (a : Reg) (b : Src) (s : State) : Host.Outcome State Fault Refusal :=
  .next (s.alu2 (fun x y => x ^^^ y) a b)

/-- R84. -/
def execAnd (a : Reg) (b : Src) (s : State) : Host.Outcome State Fault Refusal :=
  .next (s.alu2 (fun x y => x &&& y) a b)

/-- R85. -/
def execOr (a : Reg) (b : Src) (s : State) : Host.Outcome State Fault Refusal :=
  .next (s.alu2 (fun x y => x ||| y) a b)

/-- R86. -/
def execShl (a : Reg) (b : Src) (s : State) : Host.Outcome State Fault Refusal :=
  .next (s.alu2 shiftLeft a b)

/-- R87. -/
def execShr (a : Reg) (b : Src) (s : State) : Host.Outcome State Fault Refusal :=
  .next (s.alu2 shiftRight a b)

/-- R88. -/
def execCmp (a : Reg) (b : Src) (s : State) : Host.Outcome State Fault Refusal :=
  .next (s.alu2 compareResult a b)

/-- R89. -/
def execNot (a : Reg) (s : State) : Host.Outcome State Fault Refusal :=
  .next (s.setReg a (~~~ (s.reg a)))

/-- R90. -/
def execNeg (a : Reg) (s : State) : Host.Outcome State Fault Refusal :=
  .next (s.setReg a (0#16 - s.reg a))

end Sys2Proof.Machine
end

