-- ==== Sys2Proof/Machine/Control.lean ====
section
/-!
DEFINITION. nop, halt, wait, poll (40_machine_control.md). A meaning starts in the state in which
`ip <- next_ip` is done (30_encoding.md R55, log entry 7); the cycles are charged by Machine/Engine.lean.
-/

namespace Sys2Proof.Machine

/-- R70. -/
def execNop (s : State) : Host.Outcome State Fault Refusal :=
  .next s

/-- R71. -/
def execHalt (s : State) : Host.Outcome State Fault Refusal :=
  .next (s.stop .haltInstruction)

/-- R72: take the pending event, or block. -/
def execWait (s : State) : Host.Outcome State Fault Refusal :=
  .next (if s.ev.kind ≠ .none then s.consume else { s with mode := .waitingForEvent })

/-- R74: take the pending event, or the empty one. -/
def execPoll (s : State) : Host.Outcome State Fault Refusal :=
  .next s.consume

end Sys2Proof.Machine
end

