-- ==== Sys2Proof/Machine/DiskIo.lean ====
section
/-!
DEFINITION. read and write, drive 0 and drive 1 (44_disk_io.md). They only start a transfer, or post a rejection
at once (R132); Machine/Devices.lean completes it.
-/

namespace Sys2Proof.Machine

/-- Accept a transfer: the drive becomes Busy from the clock value at which the instruction starts (R130, R131). -/
def State.startTransfer (s : State) (d : DriveId) (dir : Dir) (ma da : Word) : State :=
  s.setDrive d { s.drive d with xfer := .busy dir s.clock ma da, idle := 0 }

/-- `read d, a, b`: the checks of R130, in its order. -/
def State.requestRead (s : State) (d : DriveId) (ma da : Word) : State :=
  if (s.drive d).present = false then s.postDisk d .notPresent
  else if (s.drive d).xfer ≠ .idle then s.postDisk d .diskBusy
  else s.startTransfer d .rd ma da

/-- `write d, a, b`: the checks of R131, in its order. -/
def State.requestWrite (s : State) (d : DriveId) (ma da : Word) : State :=
  if (s.drive d).present = false then s.postDisk d .notPresent
  else if (s.drive d).xfer ≠ .idle then s.postDisk d .diskBusy
  else if (s.drive d).readonly = true then s.postDisk d .notWriteable
  else s.startTransfer d .wr ma da

/-- R130, drive 0. -/
def execRead0 (a b : Src) (s : State) : Host.Outcome State Fault Refusal :=
  .next (s.requestRead .zero (s.val a) (s.val b))

/-- R130, drive 1. -/
def execRead1 (a b : Src) (s : State) : Host.Outcome State Fault Refusal :=
  .next (s.requestRead .one (s.val a) (s.val b))

/-- R131, drive 0. -/
def execWrite0 (a b : Src) (s : State) : Host.Outcome State Fault Refusal :=
  .next (s.requestWrite .zero (s.val a) (s.val b))

/-- R131, drive 1. -/
def execWrite1 (a b : Src) (s : State) : Host.Outcome State Fault Refusal :=
  .next (s.requestWrite .one (s.val a) (s.val b))

end Sys2Proof.Machine
end

