-- ==== Sys2Proof/Machine/MemoryAccess.lean ====
section
/-!
DEFINITION. load loadw store storew, three offset forms each (43_memory_access.md). Registers are read before
anything is written (R120).
-/

namespace Sys2Proof.Machine

/-- Load a byte, zero-extended, from `(val(b) + off) mod 2^16` (R121). -/
def State.loadByte (s : State) (a : Reg) (b : Src) (off : Word) : State :=
  s.setReg a (zext16 (s.readByte (s.effAddr b off)))

/-- Load a word from `(val(b) + off) mod 2^16` (R122). -/
def State.loadWord (s : State) (a : Reg) (b : Src) (off : Word) : State :=
  s.setReg a (s.readWord (s.effAddr b off))

/-- Store the low byte of `val(b)` at `(val(a) + off) mod 2^16` (R123). -/
def State.storeByte (s : State) (a b : Src) (off : Word) : State :=
  s.writeByte (s.effAddr a off) (loByte (s.val b))

/-- Store `val(b)` at `(val(a) + off) mod 2^16` (R124). -/
def State.storeWord (s : State) (a b : Src) (off : Word) : State :=
  s.writeWord (s.effAddr a off) (s.val b)

/-- R121, no offset. -/
def execLoad (a : Reg) (b : Src) (s : State) : Host.Outcome State Fault Refusal :=
  .next (s.loadByte a b 0#16)

/-- R121, byte offset. -/
def execLoadOff8 (a : Reg) (b : Src) (off : Byte) (s : State) : Host.Outcome State Fault Refusal :=
  .next (s.loadByte a b (zext16 off))

/-- R121, word offset. -/
def execLoadOff16 (a : Reg) (b : Src) (off : Word) (s : State) : Host.Outcome State Fault Refusal :=
  .next (s.loadByte a b off)

/-- R122, no offset. -/
def execLoadw (a : Reg) (b : Src) (s : State) : Host.Outcome State Fault Refusal :=
  .next (s.loadWord a b 0#16)

/-- R122, byte offset. -/
def execLoadwOff8 (a : Reg) (b : Src) (off : Byte) (s : State) : Host.Outcome State Fault Refusal :=
  .next (s.loadWord a b (zext16 off))

/-- R122, word offset. -/
def execLoadwOff16 (a : Reg) (b : Src) (off : Word) (s : State) : Host.Outcome State Fault Refusal :=
  .next (s.loadWord a b off)

/-- R123, no offset. -/
def execStore (a b : Src) (s : State) : Host.Outcome State Fault Refusal :=
  .next (s.storeByte a b 0#16)

/-- R123, byte offset. -/
def execStoreOff8 (a b : Src) (off : Byte) (s : State) : Host.Outcome State Fault Refusal :=
  .next (s.storeByte a b (zext16 off))

/-- R123, word offset. -/
def execStoreOff16 (a b : Src) (off : Word) (s : State) : Host.Outcome State Fault Refusal :=
  .next (s.storeByte a b off)

/-- R124, no offset. -/
def execStorew (a b : Src) (s : State) : Host.Outcome State Fault Refusal :=
  .next (s.storeWord a b 0#16)

/-- R124, byte offset. -/
def execStorewOff8 (a b : Src) (off : Byte) (s : State) : Host.Outcome State Fault Refusal :=
  .next (s.storeWord a b (zext16 off))

/-- R124, word offset. -/
def execStorewOff16 (a b : Src) (off : Word) (s : State) : Host.Outcome State Fault Refusal :=
  .next (s.storeWord a b off)

end Sys2Proof.Machine
end

