-- ==== Sys2Proof/Machine/Stack.lean ====
section
/-!
DEFINITION. ret pop push jmp call and the six conditional jumps (42_stack_and_control_transfer.md). In the state
a meaning starts in, `ip` is `next_ip` (30_encoding.md R55, log entry 7).
-/

namespace Sys2Proof.Machine

/-- R100: S is raised before the word is read. -/
def execRet (s : State) : Host.Outcome State Fault Refusal :=
  .next (s.raiseStack.setIp s.raiseStack.stackTop)

/-- R101: the destination is written last, so `pop S` ends with S the loaded word. -/
def execPop (a : Reg) (s : State) : Host.Outcome State Fault Refusal :=
  .next (s.raiseStack.setReg a s.raiseStack.stackTop)

/-- R102: the value is read before S changes. -/
def execPush (b : Src) (s : State) : Host.Outcome State Fault Refusal :=
  .next (s.pushWord (s.val b))

/-- R103. -/
def execJmp (b : Src) (s : State) : Host.Outcome State Fault Refusal :=
  .next (s.setIp (s.val b))

/-- R104: the target is read before S changes, and `next_ip` is pushed. -/
def execCall (b : Src) (s : State) : Host.Outcome State Fault Refusal :=
  .next ((s.pushWord s.ip).setIp (s.val b))

/-- A conditional jump: test `a`, jump to `b` (R105). -/
def State.jumpIf (s : State) (condition : Word → Bool) (a b : Src) : State :=
  if condition (s.val a) then s.setIp (s.val b) else s

/-- R106. -/
def execJez (a b : Src) (s : State) : Host.Outcome State Fault Refusal :=
  .next (s.jumpIf isZero a b)

/-- R107. -/
def execJnz (a b : Src) (s : State) : Host.Outcome State Fault Refusal :=
  .next (s.jumpIf isNonZero a b)

/-- R108. -/
def execJl (a b : Src) (s : State) : Host.Outcome State Fault Refusal :=
  .next (s.jumpIf isLess a b)

/-- R109. -/
def execJg (a b : Src) (s : State) : Host.Outcome State Fault Refusal :=
  .next (s.jumpIf isGreater a b)

/-- R110. -/
def execJle (a b : Src) (s : State) : Host.Outcome State Fault Refusal :=
  .next (s.jumpIf isLessOrEqual a b)

/-- R111. -/
def execJge (a b : Src) (s : State) : Host.Outcome State Fault Refusal :=
  .next (s.jumpIf isGreaterOrEqual a b)

end Sys2Proof.Machine
end

