-- ==== Sys2Proof/Machine/Dispatch.lean ====
section
/-!
DEFINITION. `exec`: the meaning of each instruction, one arm per constructor of `Instr`. `exec i s` is "execute the
instruction's rule" of 60_exceptions.md R152: `s` is the state in which the instruction is decoded and
`ip <- next_ip` is done (log entry 7).
-/

namespace Sys2Proof.Machine

def exec (i : Instr) (s : State) : Host.Outcome State Fault Refusal :=
  match i with
  | .nop => Sys2Proof.Machine.execNop s
  | .ret => Sys2Proof.Machine.execRet s
  | .halt => Sys2Proof.Machine.execHalt s
  | .wait => Sys2Proof.Machine.execWait s
  | .poll => Sys2Proof.Machine.execPoll s
  | .add a b => Sys2Proof.Machine.execAdd a b s
  | .sub a b => Sys2Proof.Machine.execSub a b s
  | .xor a b => Sys2Proof.Machine.execXor a b s
  | .and a b => Sys2Proof.Machine.execAnd a b s
  | .or a b => Sys2Proof.Machine.execOr a b s
  | .shl a b => Sys2Proof.Machine.execShl a b s
  | .shr a b => Sys2Proof.Machine.execShr a b s
  | .cmp a b => Sys2Proof.Machine.execCmp a b s
  | .not a => Sys2Proof.Machine.execNot a s
  | .neg a => Sys2Proof.Machine.execNeg a s
  | .pop a => Sys2Proof.Machine.execPop a s
  | .push b => Sys2Proof.Machine.execPush b s
  | .jmp b => Sys2Proof.Machine.execJmp b s
  | .call b => Sys2Proof.Machine.execCall b s
  | .load a b => Sys2Proof.Machine.execLoad a b s
  | .loadOff8 a b off => Sys2Proof.Machine.execLoadOff8 a b off s
  | .loadOff16 a b off => Sys2Proof.Machine.execLoadOff16 a b off s
  | .loadw a b => Sys2Proof.Machine.execLoadw a b s
  | .loadwOff8 a b off => Sys2Proof.Machine.execLoadwOff8 a b off s
  | .loadwOff16 a b off => Sys2Proof.Machine.execLoadwOff16 a b off s
  | .store a b => Sys2Proof.Machine.execStore a b s
  | .storeOff8 a b off => Sys2Proof.Machine.execStoreOff8 a b off s
  | .storeOff16 a b off => Sys2Proof.Machine.execStoreOff16 a b off s
  | .storew a b => Sys2Proof.Machine.execStorew a b s
  | .storewOff8 a b off => Sys2Proof.Machine.execStorewOff8 a b off s
  | .storewOff16 a b off => Sys2Proof.Machine.execStorewOff16 a b off s
  | .jez a b => Sys2Proof.Machine.execJez a b s
  | .jnz a b => Sys2Proof.Machine.execJnz a b s
  | .jl a b => Sys2Proof.Machine.execJl a b s
  | .jg a b => Sys2Proof.Machine.execJg a b s
  | .jle a b => Sys2Proof.Machine.execJle a b s
  | .jge a b => Sys2Proof.Machine.execJge a b s
  | .read0 a b => Sys2Proof.Machine.execRead0 a b s
  | .read1 a b => Sys2Proof.Machine.execRead1 a b s
  | .write0 a b => Sys2Proof.Machine.execWrite0 a b s
  | .write1 a b => Sys2Proof.Machine.execWrite1 a b s

end Sys2Proof.Machine
end

