-- ==== Sys2Proof/Machine/Engine.lean ====
section
/-!
DEFINITION. The execution engine (60_exceptions.md R147, R150 to R153): fetch, cost, one instruction, the cycles it
is charged, and the round of a waiting core.
-/

namespace Sys2Proof.Machine

/-- `COST(m)` (00_scope.md R5): the table's entry, or the default 1 (decision D12). -/
def costIn : List (Mnemonic × Nat) → Mnemonic → Nat
  | [], _ => 1
  | (k, c) :: t, m => if k = m then c else costIn t m

/-- The cycles charged for an instruction in a state (R152). -/
def State.cost (s : State) (i : Instr) : Nat :=
  costIn s.params.cost i.mnemonic

/-- The byte of memory at offset `k` from `ip`, mod 2^16 (10_state.md R12, 20_memory.md R44). -/
def State.fetchByte (s : State) (k : Nat) : Byte :=
  s.readByte (s.ip + BitVec.ofNat 16 k)

/-- Decode the instruction at `ip` (30_encoding.md R55). -/
def State.fetch (s : State) : Except IllegalCause (Instr × Nat) :=
  decode s.fetchByte

/-- `next_ip`: the address after an instruction of `n` bytes at `ip`, mod 2^16 (30_encoding.md R55). -/
def State.nextIp (s : State) (n : Nat) : Word :=
  s.ip + BitVec.ofNat 16 n

/-- `Step()` (R152), when the mode is Running: the state after the instruction and the cycles it is charged. An
illegal instruction takes the exception and is charged none (R141). -/
def stepInstr (s : State) : Host.Outcome (State × Nat) Fault Refusal :=
  match s.fetch with
  | .error c => .next (s.raiseIllegal c, 0)
  | .ok (i, n) =>
    match exec i (s.setIp (s.nextIp n)) with
    | .next t => .next (t, s.cost i)
    | .fault r => .fault r
    | .refused r => .refused r

/-- The instruction at `ip`, then the `Tick`s it is charged: the Running round of R153. -/
def runningRound (s : State) : Host.Outcome State Fault Refusal :=
  match stepInstr s with
  | .next (t, c) => .next (t.ticks c)
  | .fault r => .fault r
  | .refused r => .refused r

/-- Wake-up (R147): deliver the event and run again. It costs no cycle. -/
def State.wakeUp (s : State) : State :=
  { s.consume with mode := .running }

/-- The WaitingForEvent round of R153 with budget left: wake up if an event is pending, else let one cycle pass. -/
def State.waitingRound (s : State) : State :=
  if s.ev.kind ≠ .none then s.wakeUp else s.tick

/-- One round of R153 with budget left: nothing in Halted (log entry 6), a wake-up or one `Tick` in
WaitingForEvent, one instruction and its `Tick`s in Running. -/
def State.round (s : State) : Host.Outcome State Fault Refusal :=
  match s.mode with
  | .halted => .next s
  | .waitingForEvent => .next s.waitingRound
  | .running => runningRound s

/-- Store `n` bytes of a table row of `nbits` bits at `ip` and after it, mod 2^16. -/
def State.placeBytes (s : State) (nbits w : Nat) : Nat → State
  | 0 => s
  | n + 1 => (s.placeBytes nbits w n).writeByte (s.ip + BitVec.ofNat 16 n) (tableByte nbits w n)

end Sys2Proof.Machine
end

