-- ==== Sys2Proof/Machine/Step.lean ====
section
/-!
DEFINITION. `step`: one round of the run loop of 60_exceptions.md R153 with at least one cycle of budget left
(log entry 5); and `withFetchWord`, which places one instruction where `step` fetches next.
-/

namespace Sys2Proof.Machine

/-- One step: one round of R153 (`State.round`). -/
def step (s : State) : Host.Outcome State Fault Refusal :=
  s.round

/-- `s` with the instruction whose bits are `w` stored where `step` fetches its next instruction. The fetch also
needs the mode Running, and R16 then asks for the halt cause none. This stands for a program loaded from outside
the machine (log entry 3). -/
def State.withFetchWord (s : State) (nbits w : Nat) : State :=
  { s.placeBytes nbits w Config.maxInstrBytes with mode := .running, haltCause := .none }

end Sys2Proof.Machine
end

