-- ==== Sys2Proof/Machine/RunLoop.lean ====
section
/-!
DEFINITION. `run(n)`: the loop of 60_exceptions.md R153 with its cycle budget, the only way time and execution
advance (R150).
-/

namespace Sys2Proof.Machine

/-- The loop of R153: `fuel` bounds the number of rounds (log entry 9), `rem` is the budget that remains. -/
def runLoop : Nat → Nat → State → Host.Outcome State Fault Refusal
  | 0, _, s => .next s
  | fuel + 1, rem, s =>
    match s.mode with
    | .halted => .next s
    | .waitingForEvent =>
      if s.ev.kind ≠ .none then runLoop fuel rem s.wakeUp
      else if rem = 0 then .next s
      else runLoop fuel (rem - 1) s.tick
    | .running =>
      if rem = 0 then .next s
      else
        match stepInstr s with
        | .next (t, c) => runLoop fuel (rem - c) (t.ticks c)
        | .fault r => .fault r
        | .refused r => .refused r

/-- `run(n)` (R153). A round either returns, or lowers the budget, or is a wake-up, after which the mode is
Running: so `2 * n + 2` rounds are enough (log entry 9). -/
def run (n : Nat) (s : State) : Host.Outcome State Fault Refusal :=
  runLoop (2 * n + 2) n s

end Sys2Proof.Machine
end

