-- ==== Sys2Proof/Machine/HostInterface.lean ====
section
/-!
DEFINITION. The host interface (60_exceptions.md R163, R164, R170 to R181; 70_reset_and_hazards.md R190): each
operation is a transaction on the state, issued one at a time and never during a `run` (log entry 10).
-/

namespace Sys2Proof.Machine

/-! ## Reset (R171, R190) -/

/-- `initialize()`: every item of state to the value of 10_state.md R26, the images zeroed, memory
`BOOT_IMAGE`. -/
def State.initializeMachine (s : State) : State :=
  { State.reset with mem := s.params.bootImage, params := s.params }

/-- `reset()`: as `initialize()`, but the disk images are kept (R171). The only way out of Halted (R143). -/
def State.resetMachine (s : State) : State :=
  { s.initializeMachine with
    drive0 := { Drive.reset with image := s.drive0.image }
    drive1 := { Drive.reset with image := s.drive1.image } }

/-! ## Keys (R172, R173) -/

/-- Put a key code that is not in it into the ordered list of pressed keys. -/
def insertKey (code : Word) : List Word → List Word
  | [] => [code]
  | k :: ks => if code.toNat < k.toNat then code :: k :: ks else k :: insertKey code ks

/-- `key_down(code)` (R172). -/
def State.keyDown (s : State) (code : Word) : State :=
  if code ∈ s.keys then s
  else ({ s with keys := insertKey code s.keys } : State).post .keyDown code

/-- `key_up(code)` (R173). -/
def State.keyUp (s : State) (code : Word) : State :=
  if code ∈ s.keys then ({ s with keys := s.keys.filter (fun k => k ≠ code) } : State).post .keyUp code
  else s

/-! ## Disks (R163, R164, R175 to R177) -/

/-- The drive that a host's drive index names, if any (R181). -/
def driveOfIndex : Nat → Option DriveId
  | 0 => some .zero
  | 1 => some .one
  | _ => none

/-- `insert_disk(d)` with its read-only attribute (R175); none: refused. -/
def State.insertDisk (s : State) (d : DriveId) (ro : Bool) : Option State :=
  if (s.drive d).xfer ≠ .idle then none
  else some (s.setDrive d { s.drive d with present := true, dirty := false, readonly := ro })

/-- `remove_disk(d)` (R176); none: refused. -/
def State.removeDisk (s : State) (d : DriveId) : Option State :=
  if (s.drive d).xfer ≠ .idle then none
  else some (s.setDrive d { s.drive d with present := false })

/-- The host writes an image into `disk_buffer(d)` (R177); none: the host has no such move while the drive is
bound (log entry 11). -/
def State.fillBuffer (s : State) (d : DriveId) (image : Memory) : Option State :=
  if (s.drive d).present = true then none
  else if image.wf Config.imageBytes then some (s.setDrive d { s.drive d with image := image })
  else none

/-- `disk_stats(d)` (R163): `dirty` in bit 31, `idle` in bits 30:0. -/
def State.diskStats (s : State) (d : DriveId) : BitVec 32 :=
  BitVec.ofNat 32 ((if (s.drive d).dirty then 2147483648 else 0) + (s.drive d).idle)

/-- The drive-active indicator, which the host derives (R164). -/
def State.driveActive (s : State) (d : DriveId) : Bool :=
  2 * (s.drive d).idle < s.params.cycleRate

/-! ## The framebuffer (20_memory.md R38, R178) -/

/-- The guest address of the pixel at column `c` and row `r` (20_memory.md R38). -/
def State.pixelAddress (s : State) (c r : Nat) : Nat :=
  s.params.screen.base + r * s.params.screen.width + c

/-- The palette index of that pixel, as the host reads it after a run (R178). -/
def State.pixel (s : State) (c r : Nat) : Byte :=
  s.mem.read (s.pixelAddress c r)

/-! ## The operations, as the host issues them (R170) -/

/-- The host operations of R170. -/
inductive HostCall where
  /-- `initialize()` -/
  | init
  /-- `reset()` -/
  | reset
  /-- `run(n)` -/
  | run (n : Nat)
  | keyDown (code : Word)
  | keyUp (code : Word)
  /-- `insert_disk(d)`, the read-only attribute being false when not supplied (R175). -/
  | insertDisk (d : Nat) (ro : Option Bool)
  | removeDisk (d : Nat)
  /-- `disk_buffer(d)`, to read the image. -/
  | readBuffer (d : Nat)
  /-- `disk_buffer(d)`, to write an image. -/
  | fillBuffer (d : Nat) (image : Memory)
  | diskStats (d : Nat)
  | screenBuffer
  | screenWidth
  | screenHeight
  deriving DecidableEq, Repr

/-- What an operation answers to the host. -/
inductive HostReply where
  /-- No result. -/
  | done
  /-- The operation was carried out. -/
  | ok
  /-- The operation was refused, with no change (R181). -/
  | refused
  | status (v : BitVec 32)
  | image (m : Memory)
  | number (n : Nat)
  deriving DecidableEq, Repr

/-- The answer of an operation that may be refused: refused leaves the state as it is (R181). -/
def replyTo (s : State) : Option State → HostReply × State
  | some t => (.ok, t)
  | none => (.refused, s)

/-- An operation on the drive with index `d`; a bad index is refused (R181). -/
def onDrive (s : State) (d : Nat) (k : DriveId → HostReply × State) : HostReply × State :=
  match driveOfIndex d with
  | some i => k i
  | none => (.refused, s)

/-- One host operation (R170). -/
def hostCall (c : HostCall) (s : State) : Host.Outcome (HostReply × State) Fault Refusal :=
  match c with
  | .init => .next (.done, s.initializeMachine)
  | .reset => .next (.done, s.resetMachine)
  | .run n =>
    match run n s with
    | .next t => .next (.done, t)
    | .fault r => .fault r
    | .refused r => .refused r
  | .keyDown code => .next (.done, s.keyDown code)
  | .keyUp code => .next (.done, s.keyUp code)
  | .insertDisk d ro => .next (onDrive s d fun i => replyTo s (s.insertDisk i (ro.getD false)))
  | .removeDisk d => .next (onDrive s d fun i => replyTo s (s.removeDisk i))
  | .readBuffer d => .next (onDrive s d fun i => (.image (s.drive i).image, s))
  | .fillBuffer d m => .next (onDrive s d fun i => replyTo s (s.fillBuffer i m))
  | .diskStats d => .next (onDrive s d fun i => (.status (s.diskStats i), s))
  | .screenBuffer => .next (.number s.params.screen.base, s)
  | .screenWidth => .next (.number s.params.screen.width, s)
  | .screenHeight => .next (.number s.params.screen.height, s)

end Sys2Proof.Machine
end

