-- ==== Sys2Proof/Safety.lean ====
section
/-!
DEFINITION. What counts as a safe run, in the terms that claims use: how a run ended (70_reset_and_hazards.md R202)
and the invariant that the machine keeps.
-/

namespace Sys2Proof.Machine

/-- The program ended by executing `halt` (R202). -/
abbrev State.endedOrderly (s : State) : Prop :=
  s.mode = .halted ∧ s.haltCause = .haltInstruction

/-- The core was stopped by an illegal instruction: a fault, not an orderly end (R202, 93_implementation_defined.md
U1). -/
abbrev State.stoppedByFault (s : State) : Prop :=
  s.mode = .halted ∧ (s.haltCause = .illegalOpcode ∨ s.haltCause = .illegalDestination)

/-- The constraints of 00_scope.md R5 on the parameters, and a canonical boot image. -/
structure ParamsOk (p : Config.Params) : Prop where
  transfer_pos : 1 ≤ p.diskTransferCycles
  refresh_pos : 1 ≤ p.refreshPeriod
  screen_fits : p.screen.fits
  boot_wf : Memory.wf Config.memSize p.bootImage
  cost_pos : ∀ e ∈ p.cost, 1 ≤ e.2

/-- What holds of a drive record at clock value `clock` with transfer time `cycles`. -/
structure DriveOk (cycles clock : Nat) (r : Drive) : Prop where
  /-- The image is canonical. -/
  image_wf : r.image.wf Config.imageBytes
  /-- The idle counter is at most `IDLE_MAX` (10_state.md R21). -/
  idle_le : r.idle ≤ Config.idleMax
  /-- While Busy: the idle counter is 0 (R162), an image is bound (R176), the transfer started in the past and
  is not yet due (R160), and a `write` is to a writable image (R131). -/
  busy : ∀ dir started ma da, r.xfer = .busy dir started ma da →
    r.idle = 0 ∧ r.present = true ∧ started ≤ clock ∧ clock - started < cycles ∧
      (dir = .wr → r.readonly = false)

/-- The invariant of the machine. -/
structure State.Inv (s : State) : Prop where
  /-- Guest memory is canonical. -/
  mem_wf : s.mem.wf Config.memSize
  /-- The halt cause is `none` except in Halted, and not `none` in Halted (10_state.md R16). -/
  halt_iff : s.mode = .halted ↔ s.haltCause ≠ .none
  /-- An empty slot has payload 0 (10_state.md R17). -/
  ev_empty : s.ev.kind = .none → s.ev.payload = 0
  /-- The pressed keys are a set (10_state.md R22), listed once each; the rising order is the model's (log entry 17). -/
  keys_wf : s.keys.Pairwise (fun k k' => k.toNat < k'.toNat)
  drive0_ok : DriveOk s.params.diskTransferCycles s.clock s.drive0
  drive1_ok : DriveOk s.params.diskTransferCycles s.clock s.drive1
  params_ok : ParamsOk s.params

end Sys2Proof.Machine
end

