-- ==== Sys2Proof/Certificates/Slice0/Obligations.lean ====
section
/-!
DEFINITION. The statements for the provers: one `def Obligations.<Name> : Prop` each, listed in OBLIGATIONS.json.
"D n" is a decision of 92_eei_decisions.md, the spec's own choice on a point its source leaves open.
-/

open Sys2Proof Sys2Proof.Machine

namespace Sys2Proof.Claims

/-! ## Frames: what an instruction leaves unchanged -/

/-- Every register but the listed ones reads as before. -/
def RegsKept (s t : State) (changed : List Reg) : Prop :=
  ∀ r, r ∉ changed → t.reg r = s.reg r

/-- Every byte of guest memory but the listed addresses reads as before. -/
def MemKept (s t : State) (stored : List Word) : Prop :=
  ∀ a, a ∉ stored → t.readByte a = s.readByte a

/-- The run state is as before. -/
def RunStateKept (s t : State) : Prop :=
  t.mode = s.mode ∧ t.haltCause = s.haltCause

/-- The clock, both drives, the pressed keys and the parameters are as before. -/
def DevicesKept (s t : State) : Prop :=
  t.clock = s.clock ∧ (∀ d, t.drive d = s.drive d) ∧ t.keys = s.keys ∧ t.params = s.params

/-- Everything but `ip`, the listed registers and the listed bytes of memory is as before. -/
def Frame (s t : State) (changed : List Reg) (stored : List Word) : Prop :=
  RegsKept s t changed ∧ MemKept s t stored ∧ RunStateKept s t ∧ t.ev = s.ev ∧ DevicesKept s t

/-! ## Opcode bytes, as 30_encoding.md R56 and R58 list them -/

/-- The 41 opcode bytes that are instructions (R56). -/
def listedOpcodes : List Byte :=
  [0x00, 0x01, 0x02, 0x03, 0x04] ++ [0x10, 0x11, 0x12, 0x13, 0x14, 0x15, 0x16, 0x17] ++
  [0x20, 0x21, 0x22, 0x23, 0x24, 0x25] ++
  [0x30, 0x31, 0x32, 0x34, 0x35, 0x36, 0x38, 0x39, 0x3A, 0x3C, 0x3D, 0x3E] ++
  [0x40, 0x41, 0x42, 0x43, 0x44, 0x45] ++ [0x50, 0x51, 0x52, 0x53]

/-- The opcode bytes of the 13 mnemonics whose field `a` is a destination (R58). -/
def destinationOpcodes : List Byte :=
  [0x10, 0x11, 0x12, 0x13, 0x14, 0x15, 0x16, 0x17, 0x20, 0x21, 0x22, 0x30, 0x31, 0x32, 0x34, 0x35, 0x36]

/-- Bit 7 of the operand byte: a destination code above 7 (R58). -/
abbrev BadDestination (rd : Nat → Byte) : Prop := (rd 1).getLsbD 7 = true

/-- Field `a` of the operand byte is unused (R60). -/
def unusedA : Instr → Bool
  | .push _ => true
  | .jmp _ => true
  | .call _ => true
  | _ => false

/-- Field `b` of the operand byte is unused (R60). -/
def unusedB : Instr → Bool
  | .not _ => true
  | .neg _ => true
  | .pop _ => true
  | _ => false

/-! ## Whole-machine lists -/

/-- The registers an instruction may write (10_state.md R11). -/
def writtenRegs : Instr → List Reg
  | .add a _ | .sub a _ | .xor a _ | .and a _ | .or a _ | .shl a _ | .shr a _ | .cmp a _ => [a]
  | .not a | .neg a => [a]
  | .load a _ | .loadOff8 a _ _ | .loadOff16 a _ _ => [a]
  | .loadw a _ | .loadwOff8 a _ _ | .loadwOff16 a _ _ => [a]
  | .pop a => [a, .S]
  | .push _ | .call _ | .ret => [.S]
  | .wait | .poll => [.A, .B]
  | _ => []

/-- The instructions that write data memory (20_memory.md R35). -/
def storesMemory : Instr → Bool
  | .store _ _ | .storeOff8 _ _ _ | .storeOff16 _ _ _ => true
  | .storew _ _ | .storewOff8 _ _ _ | .storewOff16 _ _ _ => true
  | .push _ | .call _ => true
  | _ => false

/-- The drive that a disk instruction names (44_disk_io.md R129). -/
def driveNamed : Instr → Option DriveId
  | .read0 _ _ | .write0 _ _ => some .zero
  | .read1 _ _ | .write1 _ _ => some .one
  | _ => none

/-- `i` is a byte store of `b` at `base + off`, in one of its three offset forms (43_memory_access.md R120, R123). -/
def IsStoreByte (base b : Src) (off : Word) (i : Instr) : Prop :=
  (off = 0 ∧ i = .store base b) ∨ (∃ f : Byte, off.toNat = f.toNat ∧ i = .storeOff8 base b f) ∨
    i = .storeOff16 base b off

/-- `i` is a byte load of `r` from `base + off`, in one of its three offset forms (43_memory_access.md R120, R121). -/
def IsLoadByte (r : Reg) (base : Src) (off : Word) (i : Instr) : Prop :=
  (off = 0 ∧ i = .load r base) ∨ (∃ f : Byte, off.toNat = f.toNat ∧ i = .loadOff8 r base f) ∨
    i = .loadOff16 r base off

/-- The next `Tick` completes drive `d`'s transfer in direction `dir` between `ma` and `da` (60_exceptions.md R151,
R160). -/
def Completing (s : State) (d : DriveId) (dir : Dir) (ma da : Word) : Prop :=
  ∃ t0, (s.drive d).xfer = .busy dir t0 ma da ∧ s.params.diskTransferCycles ≤ s.clock + 1 - t0

/-- What the completion of one transfer does (20_memory.md R39, 60_exceptions.md R161) to guest memory, which is `mem`
before and `mem'` after it, and to the drive's record, `r` before and `r'` after it. -/
def CopyDone (dir : Dir) (ma da : Word) (mem mem' : Memory) (r r' : Drive) : Prop :=
  match dir with
  | .rd =>
    (∀ i, i < 4096 → mem'.read ((ma.toNat + i) % 65536) = r.image.read ((da.toNat * 16 + i) % 1048576)) ∧
    (∀ a, (∀ i, i < 4096 → (ma.toNat + i) % 65536 ≠ a) → mem'.read a = mem.read a) ∧
    r' = { r with xfer := .idle, idle := 0 }
  | .wr =>
    (∀ i, i < 4096 → r'.image.read ((da.toNat * 16 + i) % 1048576) = mem.read ((ma.toNat + i) % 65536)) ∧
    (∀ a, (∀ i, i < 4096 → (da.toNat * 16 + i) % 1048576 ≠ a) → r'.image.read a = r.image.read a) ∧
    (∀ a, mem'.read a = mem.read a) ∧
    r' = { r with image := r'.image, dirty := true, xfer := .idle, idle := 0 }

/-- Drive `d` has a transfer that the next `Tick` completes (60_exceptions.md R151, R160). -/
def Due (s : State) (d : DriveId) : Prop :=
  ∃ dir t0 ma da, (s.drive d).xfer = .busy dir t0 ma da ∧ s.params.diskTransferCycles ≤ s.clock + 1 - t0

end Sys2Proof.Claims

open Sys2Proof.Claims

/-! ## Encoding -/

/-- Decode and encode agree (decision D1): whatever follows the encoding of a well-formed instruction in
memory, decoding gives back that instruction and the length of its encoding. -/
def Obligations.DecodeInvertsEncode : Prop :=
  ∀ (i : Instr) (rd : Nat → Byte), i.wf = true →
    (∀ k, k < (encode i).length → rd k = (encode i).getD k 0) →
    decode rd = .ok (i, (encode i).length)

/-- Whatever the bytes, a decoded instruction is well formed and its length is the length column of R52,
between 1 and 8 (decision D1). -/
def Obligations.DecodeGivesWellFormedOfItsLength : Prop :=
  ∀ (rd : Nat → Byte) (i : Instr) (n : Nat), decode rd = .ok (i, n) →
    i.wf = true ∧ n = i.length ∧ 1 ≤ n ∧ n ≤ 8

/-- The bytes of a decoded instruction are its encoding, but for the unused operand field of R60, which has
16 spellings (decisions D1, D11). -/
def Obligations.DecodedBytesAreTheEncoding : Prop :=
  ∀ (rd : Nat → Byte) (i : Instr) (n : Nat), decode rd = .ok (i, n) →
    (∀ k, k < n → k ≠ 1 → rd k = (encode i).getD k 0) ∧
    (2 ≤ n → unusedA i = false → codeA (rd 1) = codeA ((encode i).getD 1 0)) ∧
    (2 ≤ n → unusedB i = false → codeB (rd 1) = codeB ((encode i).getD 1 0))

/-- Decoding answers `illegal_opcode` exactly for the opcode bytes that R56 does not list (decision D1). -/
def Obligations.UnlistedOpcodesAreIllegal : Prop :=
  ∀ rd : Nat → Byte, decode rd = .error .illegalOpcode ↔ rd 0 ∉ listedOpcodes

/-- Decoding answers `illegal_destination` exactly when a destination field has bit 7 of the operand byte set
(R58; the opcode numbers are decision D1). -/
def Obligations.DestinationCodesAboveSevenAreIllegal : Prop :=
  ∀ rd : Nat → Byte,
    decode rd = .error .illegalDestination ↔ rd 0 ∈ destinationOpcodes ∧ BadDestination rd

/-- A few words written out from the spec's encodings (30_encoding.md R51 to R56, decision D1; the reference
encodings of 95_test_vectors.md 2.1) decode to the instructions they stand for. -/
def Obligations.SampleWordsDecodeAsWritten : Prop :=
  decodeBytes [0x03] = .ok (.wait, 1) ∧
  decodeBytes [0x11, 0x7A] = .ok (.sub .S (.lit 2), 2) ∧
  decodeBytes [0x22, 0x1D, 0xAA] = .ok (.pop .B, 2) ∧
  decodeBytes [0x25, 0x0D, 0x20] = .ok (.call (.imm8 0x20), 3) ∧
  decodeBytes [0x36, 0x06, 0x34, 0x12] = .ok (.loadwOff16 .A (.reg .P) 0x1234, 4) ∧
  decodeBytes [0x38, 0xFF] = .ok (.store (.lit 0xFFFF) (.lit 0xFFFF), 2) ∧
  decodeBytes [0x42, 0xEE, 0x34, 0x12, 0x78, 0x56] = .ok (.jl (.imm16 0x1234) (.imm16 0x5678), 6) ∧
  decodeBytes [0x53, 0xE1, 0x00, 0x20] = .ok (.write1 (.imm16 0x2000) (.reg .B), 4)

/-- The operand that R65 chooses for a value is well formed, has that value, and no other operand that names a
constant of that value takes fewer immediate bytes. -/
def Obligations.OperandOfAValueIsTheShortest : Prop :=
  ∀ (v : Word) (s : State),
    (Src.ofValue v).wf = true ∧ s.val (Src.ofValue v) = v ∧
    ∀ b : Src, b.wf = true → (∀ r, b ≠ .reg r) → s.val b = v → (Src.ofValue v).immLen ≤ b.immLen

/-! ## A step -/

/-- A STEP RUNS THE DECODED INSTRUCTION (R152, R153). In Running, when the bytes at `ip` decode to `i` of `n`
bytes, a step is `exec i` at the state with `ip` moved past the instruction, followed by the `Tick`s that
`COST` charges. -/
def Obligations.StepRunsDecodedInstruction : Prop :=
  ∀ (s t : State) (i : Instr) (n : Nat), s.mode = .running →
    decode (fun k => s.readByte (s.ip + BitVec.ofNat 16 k)) = .ok (i, n) →
    exec i (s.setIp (s.ip + BitVec.ofNat 16 n)) = .next t →
    step s = .next (t.ticks (costIn s.params.cost i.mnemonic))

/-- In Running, with the encoding of a well-formed instruction in memory at `ip` (mod 2^16, so across
0xFFFF too), a step is that instruction, then the `Tick`s it is charged. -/
def Obligations.StepRunsEncodedInstruction : Prop :=
  ∀ (s t : State) (i : Instr), s.mode = .running → i.wf = true →
    (∀ k, k < i.length → s.readByte (s.ip + BitVec.ofNat 16 k) = (encode i).getD k 0) →
    exec i (s.setIp (s.ip + BitVec.ofNat 16 i.length)) = .next t →
    step s = .next (t.ticks (costIn s.params.cost i.mnemonic))

/-- Taking the exception (R141, decision D10): at an opcode byte that R56 does not list, or at a destination
code above 7, a running core enters Halted with the cause recorded, and nothing else changes: `ip` stays at the
opcode byte, and no cycle is charged. -/
def Obligations.IllegalInstructionOnlyStopsTheCore : Prop :=
  ∀ s : State, s.mode = .running →
    (s.readByte s.ip ∉ listedOpcodes →
      step s = .next { s with mode := .halted, haltCause := .illegalOpcode }) ∧
    (s.readByte s.ip ∈ destinationOpcodes → (s.readByte (s.ip + 1)).getLsbD 7 = true →
      step s = .next { s with mode := .halted, haltCause := .illegalDestination })

/-- Halted is terminal until the host's reset (R143, R153, decision D13; log entry 6): a step and a `run` of any
budget change nothing, and no host operation but `initialize()` and `reset()` leaves it. -/
def Obligations.HaltedIsTerminalUntilReset : Prop :=
  ∀ s : State, s.mode = .halted →
    step s = .next s ∧ (∀ n, run n s = .next s) ∧
    ∀ (c : HostCall) (t : State) (r : HostReply), hostCall c s = .next (r, t) → t.mode ≠ .halted →
      c = .init ∨ c = .reset

/-- Every instruction completes in every state with every operand, and no step and no host operation answers a fault
or a refusal. That a step at an illegal instruction is a next state in Halted, and `Fault` empty, is the model's
choice (log entry 8): R202 and U1 call that stop a fault, and `State.stoppedByFault` is how a claim names it. -/
def Obligations.NothingFaultsOrIsRefused : Prop :=
  (∀ (i : Instr) (s : State), ∃ t, exec i s = .next t) ∧
  (∀ s : State, ∃ t, step s = .next t) ∧
  ∀ (c : HostCall) (s : State), ∃ r t, hostCall c s = .next (r, t)

/-- A running core that decodes an instruction is charged `COST` of its mnemonic; an illegal one is charged
nothing (R152, R141). -/
def Obligations.StepChargesTheCost : Prop :=
  ∀ s t : State, s.mode = .running → step s = .next t →
    (∀ i n, s.fetch = .ok (i, n) → t.clock = s.clock + costIn s.params.cost i.mnemonic) ∧
    (∀ c, s.fetch = .error c → t.clock = s.clock)

/-! ## Machine control -/

/-- `nop` (R70): its one byte is 0x00; it changes nothing, and a step of it only moves `ip` by 1 (mod 2^16) and
lets its cycles pass. -/
def Obligations.NopOnlyAdvances : Prop :=
  encode .nop = [0x00] ∧
  (∀ s : State, exec .nop s = .next s) ∧
  ∀ s t : State, s.mode = .running → s.readByte s.ip = 0x00 → step s = .next t →
    t = (s.setIp (s.ip + 1)).ticks (costIn s.params.cost .nop)

/-- `halt` (R71): one byte 0x02; the mode becomes Halted with `halt_instruction`, `ip` stays at the address after
it, and registers, memory, event slot, clock and drives keep their values; nothing executes afterwards: a step
and a `run` of any budget change nothing (that a step of a halted core answers the same state is the model's
deduction, log entry 6). -/
def Obligations.HaltStopsTheCore : Prop :=
  encode .halt = [0x02] ∧
  ∀ s : State, ∃ t, exec .halt s = .next t ∧
    t.mode = .halted ∧ t.haltCause = .haltInstruction ∧ t.ip = s.ip ∧
    RegsKept s t [] ∧ MemKept s t [] ∧ t.ev = s.ev ∧ DevicesKept s t ∧
    step t = .next t ∧ ∀ n, run n t = .next t

/-- `wait` (R72): with an event pending it moves kind and payload into A and B and empties the slot; with none
it blocks. (That A is register 0 and B register 1 is decision D5; the kind codes are decision D7.) -/
def Obligations.WaitTakesTheEventOrBlocks : Prop :=
  ∀ s : State, ∃ t, exec .wait s = .next t ∧ t.ip = s.ip ∧ t.haltCause = s.haltCause ∧
    MemKept s t [] ∧ DevicesKept s t ∧
    if s.ev.kind = .none then t.mode = .waitingForEvent ∧ RegsKept s t [] ∧ t.ev = s.ev
    else t.mode = s.mode ∧ t.reg .A = s.ev.kind.code ∧ t.reg .B = s.ev.payload ∧
      RegsKept s t [.A, .B] ∧ t.ev = ⟨.none, 0⟩

/-- `poll` (R74, decision D29): it moves kind and payload into A and B and empties the slot, pending or not, and
never blocks. The numbers of the six kinds are those of 10_state.md R18 (decision D7). -/
def Obligations.PollAlwaysConsumes : Prop :=
  (∀ s : State, ∃ t, exec .poll s = .next t ∧ t.ip = s.ip ∧
    t.reg .A = s.ev.kind.code ∧ t.reg .B = s.ev.payload ∧ t.ev = ⟨.none, 0⟩ ∧
    RegsKept s t [.A, .B] ∧ MemKept s t [] ∧ RunStateKept s t ∧ DevicesKept s t) ∧
  EventKind.none.code = 0 ∧ EventKind.keyUp.code = 1 ∧ EventKind.keyDown.code = 2 ∧
  EventKind.screenRefresh.code = 3 ∧ EventKind.disk0Finished.code = 4 ∧ EventKind.disk1Finished.code = 5

/-- A blocked core (R73, R147, decision D30): a step delivers a pending event into A and B, empties the slot and
runs again at no cost in cycles; with none pending it lets one cycle pass, which is one `Tick` (R153, decision D13)
and nothing more, and neither `ip` nor a register changes. -/
def Obligations.WaitingCoreWakesOnAnEvent : Prop :=
  ∀ s : State, s.mode = .waitingForEvent → ∃ t, step s = .next t ∧ t.ip = s.ip ∧
    t.haltCause = s.haltCause ∧ t.keys = s.keys ∧ t.params = s.params ∧
    if s.ev.kind = .none then
      t = s.tick ∧ t.mode = .waitingForEvent ∧ t.clock = s.clock + 1 ∧ RegsKept s t []
    else
      t.mode = .running ∧ t.clock = s.clock ∧ t.reg .A = s.ev.kind.code ∧ t.reg .B = s.ev.payload ∧
      t.ev = ⟨.none, 0⟩ ∧ RegsKept s t [.A, .B] ∧ MemKept s t [] ∧ (∀ d, t.drive d = s.drive d)

/-! ## ALU -/

/-- `add` and `sub` (R81, R82): the sum and the difference mod 2^16 go to the destination, both sources being
read first; nothing else changes; a destination code above 7 is the only exception. -/
def Obligations.AddSubWrapModulo : Prop :=
  (∀ (a : Reg) (b : Src) (s : State), ∃ t, exec (.add a b) s = .next t ∧
    (t.reg a).toNat = ((s.reg a).toNat + (s.val b).toNat) % 65536 ∧ t.ip = s.ip ∧ Frame s t [a] []) ∧
  (∀ (a : Reg) (b : Src) (s : State), ∃ t, exec (.sub a b) s = .next t ∧
    (t.reg a).toNat = ((s.reg a).toNat + 65536 - (s.val b).toNat) % 65536 ∧ t.ip = s.ip ∧
    Frame s t [a] []) ∧
  (∀ a b, (encode (.add a b)).head? = some 0x10 ∧ (encode (.sub a b)).head? = some 0x11) ∧
  (∀ rd, rd 0 ∈ [0x10, 0x11] → BadDestination rd → decode rd = .error .illegalDestination)

/-- `xor`, `and`, `or` (R83, R84, R85): bit by bit, into the destination; nothing else changes; a destination
code above 7 is the only exception. -/
def Obligations.BitwiseOpsActBitByBit : Prop :=
  (∀ (a : Reg) (b : Src) (s : State), ∃ t, exec (.xor a b) s = .next t ∧
    (∀ k, (t.reg a).getLsbD k = ((s.reg a).getLsbD k ^^ (s.val b).getLsbD k)) ∧ t.ip = s.ip ∧
    Frame s t [a] []) ∧
  (∀ (a : Reg) (b : Src) (s : State), ∃ t, exec (.and a b) s = .next t ∧
    (∀ k, (t.reg a).getLsbD k = ((s.reg a).getLsbD k && (s.val b).getLsbD k)) ∧ t.ip = s.ip ∧
    Frame s t [a] []) ∧
  (∀ (a : Reg) (b : Src) (s : State), ∃ t, exec (.or a b) s = .next t ∧
    (∀ k, (t.reg a).getLsbD k = ((s.reg a).getLsbD k || (s.val b).getLsbD k)) ∧ t.ip = s.ip ∧
    Frame s t [a] []) ∧
  (∀ a b, (encode (.xor a b)).head? = some 0x12 ∧ (encode (.and a b)).head? = some 0x13 ∧
    (encode (.or a b)).head? = some 0x14) ∧
  (∀ rd, rd 0 ∈ [0x12, 0x13, 0x14] → BadDestination rd → decode rd = .error .illegalDestination)

/-- `shl` and `shr` (R86, R87, decision D18): bit `k` of the result is bit `k - n` (or `k + n`) of the old value,
zeros enter, and a count of 16 or more, not reduced, gives 0. -/
def Obligations.ShiftsAreLogicalAndUnreduced : Prop :=
  (∀ (a : Reg) (b : Src) (s : State), ∃ t, exec (.shl a b) s = .next t ∧
    (∀ k, k < 16 → (t.reg a).getLsbD k =
      (decide ((s.val b).toNat ≤ k) && (s.reg a).getLsbD (k - (s.val b).toNat))) ∧
    t.ip = s.ip ∧ Frame s t [a] []) ∧
  (∀ (a : Reg) (b : Src) (s : State), ∃ t, exec (.shr a b) s = .next t ∧
    (∀ k, k < 16 → (t.reg a).getLsbD k = (s.reg a).getLsbD (k + (s.val b).toNat)) ∧
    t.ip = s.ip ∧ Frame s t [a] [])

/-- `cmp` (R88): the destination receives 0x0001, 0x0000 or 0xFFFF as the signed first operand is greater than,
equal to or less than the signed second, exactly over the whole range. Signed is two's complement, which is
the spec's general knowledge G1 (log entry 12). -/
def Obligations.CmpIsTheSignedOrder : Prop :=
  ∀ (a : Reg) (b : Src) (s : State), ∃ t, exec (.cmp a b) s = .next t ∧
    ((t.reg a = 0x0001#16 ↔ (s.reg a).toInt > (s.val b).toInt) ∧
      (t.reg a = 0x0000#16 ↔ (s.reg a).toInt = (s.val b).toInt) ∧
      (t.reg a = 0xFFFF#16 ↔ (s.reg a).toInt < (s.val b).toInt)) ∧
    t.ip = s.ip ∧ Frame s t [a] []

/-- `not` and `neg` (R89, R90): the complement and the negation mod 2^16 of the destination; nothing else
changes; operand code `cb` is ignored; a destination code above 7 is the only exception. -/
def Obligations.NotComplementsNegNegates : Prop :=
  (∀ (a : Reg) (s : State), ∃ t, exec (.not a) s = .next t ∧
    (t.reg a).toNat = 0xFFFF - (s.reg a).toNat ∧ t.ip = s.ip ∧ Frame s t [a] []) ∧
  (∀ (a : Reg) (s : State), ∃ t, exec (.neg a) s = .next t ∧
    ((t.reg a).toNat + (s.reg a).toNat) % 65536 = 0 ∧ t.ip = s.ip ∧ Frame s t [a] []) ∧
  (∀ (rd : Nat → Byte) (a : Reg), Reg.ofCode (codeA (rd 1)) = some a →
    (rd 0 = 0x20 → decode rd = .ok (.not a, 2)) ∧ (rd 0 = 0x21 → decode rd = .ok (.neg a, 2))) ∧
  (∀ rd, rd 0 ∈ [0x20, 0x21] → BadDestination rd → decode rd = .error .illegalDestination)

/-! ## Stack and control transfer -/

/-- `ret` and `pop` (R99, R100, R101): S is raised by 2 before the word is read; `ret` moves the word to `ip`, `pop`
to its destination, last, so `pop S` ends with S the loaded word, which is the spec's own resolution C4 and
decision D22. `ret` is the one byte 0x01 and cannot be illegal; `pop` is the byte 0x22 with a register code in `ca`
(else it is illegal), `cb` ignored. -/
def Obligations.RetAndPopRaiseTheStackFirst : Prop :=
  (∀ s : State, ∃ t, exec .ret s = .next t ∧
    t.reg .S = s.reg .S + 2 ∧ t.ip = s.readWord (s.reg .S + 2) ∧ Frame s t [.S] []) ∧
  (∀ (a : Reg) (s : State), ∃ t, exec (.pop a) s = .next t ∧
    t.reg a = s.readWord (s.reg .S + 2) ∧ (a ≠ .S → t.reg .S = s.reg .S + 2) ∧ t.ip = s.ip ∧
    Frame s t [a, .S] []) ∧
  (∀ rd : Nat → Byte, rd 0 = 0x01 → decode rd = .ok (.ret, 1)) ∧
  (∀ (rd : Nat → Byte) (a : Reg), rd 0 = 0x22 → Reg.ofCode (codeA (rd 1)) = some a →
    decode rd = .ok (.pop a, 2)) ∧
  ∀ rd : Nat → Byte, rd 0 = 0x22 → BadDestination rd → decode rd = .error .illegalDestination

/-- `push` (R102): the value, read before S changes, is stored at the old S, its low byte first (mod 2^16), and S
goes down by 2. Its opcode byte is 0x23, any operand code `cb` is legal, and `ca` is ignored. -/
def Obligations.PushStoresThenLowersTheStack : Prop :=
  (∀ (b : Src) (s : State), ∃ t, exec (.push b) s = .next t ∧
    (t.readByte (s.reg .S)).toNat = (s.val b).toNat % 256 ∧
    (t.readByte (s.reg .S + 1)).toNat = (s.val b).toNat / 256 ∧
    t.reg .S = s.reg .S - 2 ∧ t.ip = s.ip ∧ Frame s t [.S] [s.reg .S, s.reg .S + 1]) ∧
  ∀ rd : Nat → Byte, rd 0 = 0x23 →
    decode rd = .ok (.push (srcAt rd (codeB (rd 1)) 2).1, (srcAt rd (codeB (rd 1)) 2).2)

/-- `jmp` and `call` (R103, R104; that a target is absolute is decision D21): `ip` becomes the operand's value, read
before S changes; `call` first pushes the address after itself, as `push` would. Their opcode bytes are 0x24 and
0x25 (decision D1), any operand code `cb` is legal, and `ca` is ignored (R60, decision D11). -/
def Obligations.JmpAndCallTransferControl : Prop :=
  (∀ (b : Src) (s : State), ∃ t, exec (.jmp b) s = .next t ∧ t.ip = s.val b ∧ Frame s t [] []) ∧
  (∀ (b : Src) (s : State), ∃ t, exec (.call b) s = .next t ∧ t.ip = s.val b ∧
    (t.readByte (s.reg .S)).toNat = s.ip.toNat % 256 ∧
    (t.readByte (s.reg .S + 1)).toNat = s.ip.toNat / 256 ∧ t.reg .S = s.reg .S - 2 ∧
    Frame s t [.S] [s.reg .S, s.reg .S + 1]) ∧
  ∀ rd : Nat → Byte,
    (rd 0 = 0x24 → decode rd = .ok (.jmp (srcAt rd (codeB (rd 1)) 2).1, (srcAt rd (codeB (rd 1)) 2).2)) ∧
    (rd 0 = 0x25 → decode rd = .ok (.call (srcAt rd (codeB (rd 1)) 2).1, (srcAt rd (codeB (rd 1)) 2).2))

/-- The conditional jumps (R105 to R111, decisions D19, D21): each compares its first operand with 0x0000,
0x0001, 0xFFFF exactly, and changes nothing but `ip`. -/
def Obligations.ConditionalJumpsTestExactValues : Prop :=
  ∀ (a b : Src) (s : State),
    (∃ t, exec (.jez a b) s = .next t ∧ Frame s t [] [] ∧
      t.ip = if s.val a = 0x0000#16 then s.val b else s.ip) ∧
    (∃ t, exec (.jnz a b) s = .next t ∧ Frame s t [] [] ∧
      t.ip = if s.val a = 0x0000#16 then s.ip else s.val b) ∧
    (∃ t, exec (.jl a b) s = .next t ∧ Frame s t [] [] ∧
      t.ip = if s.val a = 0xFFFF#16 then s.val b else s.ip) ∧
    (∃ t, exec (.jg a b) s = .next t ∧ Frame s t [] [] ∧
      t.ip = if s.val a = 0x0001#16 then s.val b else s.ip) ∧
    (∃ t, exec (.jle a b) s = .next t ∧ Frame s t [] [] ∧
      t.ip = if s.val a = 0xFFFF#16 ∨ s.val a = 0x0000#16 then s.val b else s.ip) ∧
    (∃ t, exec (.jge a b) s = .next t ∧ Frame s t [] [] ∧
      t.ip = if s.val a = 0x0001#16 ∨ s.val a = 0x0000#16 then s.val b else s.ip)

/-- Push then pop (R101, source property S1): the popped register holds the pushed value, and S is what it was,
for every register but S, which itself ends as the value. `x` is the `ip` between the two. -/
def Obligations.PushThenPopRoundTrips : Prop :=
  ∀ (b : Src) (r : Reg) (s : State) (x : Word), ∃ t u,
    exec (.push b) s = .next t ∧ exec (.pop r) (t.setIp x) = .next u ∧
    u.reg r = s.val b ∧ (r ≠ .S → u.reg .S = s.reg .S) ∧ RegsKept s u [r, .S]

/-- `call` then `ret` (R104): `ip` is the address after the call and S is what it was, whatever `ip` the subroutine
ends at, for every state of the stack pointer. -/
def Obligations.CallThenRetReturns : Prop :=
  ∀ (b : Src) (s : State) (x : Word), ∃ t u,
    exec (.call b) s = .next t ∧ t.ip = s.val b ∧ exec .ret (t.setIp x) = .next u ∧
    u.ip = s.ip ∧ RegsKept s u []

/-- The jumps after `cmp` (source property S2, R112): each branches on the signed order of the original operands. That
signed is two's complement is PRESUMED: the spec's general knowledge G1 (log entry 12). `x` is the `ip`
between the two. -/
def Obligations.JumpsAfterCmpFollowTheSignedOrder : Prop :=
  ∀ (a : Reg) (b target : Src) (s t : State) (x : Word), exec (.cmp a b) s = .next t →
    (∃ u, exec (.jl (.reg a) target) (t.setIp x) = .next u ∧
      u.ip = if (s.reg a).toInt < (s.val b).toInt then t.val target else x) ∧
    (∃ u, exec (.jg (.reg a) target) (t.setIp x) = .next u ∧
      u.ip = if (s.reg a).toInt > (s.val b).toInt then t.val target else x) ∧
    (∃ u, exec (.jle (.reg a) target) (t.setIp x) = .next u ∧
      u.ip = if (s.reg a).toInt ≤ (s.val b).toInt then t.val target else x) ∧
    (∃ u, exec (.jge (.reg a) target) (t.setIp x) = .next u ∧
      u.ip = if (s.reg a).toInt ≥ (s.val b).toInt then t.val target else x) ∧
    (∃ u, exec (.jez (.reg a) target) (t.setIp x) = .next u ∧
      u.ip = if (s.reg a).toInt = (s.val b).toInt then t.val target else x) ∧
    (∃ u, exec (.jnz (.reg a) target) (t.setIp x) = .next u ∧
      u.ip = if (s.reg a).toInt = (s.val b).toInt then x else t.val target)

/-! ## Memory -/

/-- The two access primitives (R31, R32): a read of one byte gives the byte, a read of two gives
`Mem[addr] + 256 * Mem[(addr + 1) mod 2^16]`; a write of one byte or of two changes exactly the named bytes, and no
register, no event, no drive nor anything else of the state. -/
def Obligations.MemReadAndMemWrite : Prop :=
  ∀ (s : State) (addr : Word),
    s.readByte addr = s.mem.read addr.toNat ∧
    (s.readWord addr).toNat =
      (s.mem.read addr.toNat).toNat + 256 * (s.mem.read ((addr.toNat + 1) % 65536)).toNat ∧
    (∀ v : Word, ((s.writeByte addr (loByte v)).mem.read addr.toNat).toNat = v.toNat % 256 ∧
      (∀ a, a ≠ addr.toNat → (s.writeByte addr (loByte v)).mem.read a = s.mem.read a) ∧
      s.writeByte addr (loByte v) = { s with mem := (s.writeByte addr (loByte v)).mem }) ∧
    (∀ v : Word, ((s.writeWord addr v).mem.read addr.toNat).toNat = v.toNat % 256 ∧
      ((s.writeWord addr v).mem.read ((addr.toNat + 1) % 65536)).toNat = v.toNat / 256 ∧
      (∀ a, a ≠ addr.toNat → a ≠ (addr.toNat + 1) % 65536 →
        (s.writeWord addr v).mem.read a = s.mem.read a) ∧
      s.writeWord addr v = { s with mem := (s.writeWord addr v).mem })

/-- `load` (R120, R121, decision D21): in its three offset forms the destination receives the byte at
`(base + off) mod 2^16`, zero-extended; nothing else changes. -/
def Obligations.LoadReadsAByte : Prop :=
  ∀ (a : Reg) (b : Src) (s : State),
    (∃ t, exec (.load a b) s = .next t ∧
      (t.reg a).toNat = (s.mem.read (s.val b).toNat).toNat ∧ t.ip = s.ip ∧ Frame s t [a] []) ∧
    (∀ off : Byte, ∃ t, exec (.loadOff8 a b off) s = .next t ∧
      (t.reg a).toNat = (s.mem.read (((s.val b).toNat + off.toNat) % 65536)).toNat ∧ t.ip = s.ip ∧
      Frame s t [a] []) ∧
    (∀ off : Word, ∃ t, exec (.loadOff16 a b off) s = .next t ∧
      (t.reg a).toNat = (s.mem.read (((s.val b).toNat + off.toNat) % 65536)).toNat ∧ t.ip = s.ip ∧
      Frame s t [a] [])

/-- `loadw` (R120, R122, decision D2): in its three offset forms the destination receives the little-endian word
at `(base + off) mod 2^16`, at any alignment; nothing else changes. -/
def Obligations.LoadwReadsAWord : Prop :=
  ∀ (a : Reg) (b : Src) (s : State),
    (∃ t, exec (.loadw a b) s = .next t ∧
      (t.reg a).toNat = (s.readByte (s.val b)).toNat + 256 * (s.readByte (s.val b + 1)).toNat ∧
      t.ip = s.ip ∧ Frame s t [a] []) ∧
    (∀ off : Byte, ∃ t, exec (.loadwOff8 a b off) s = .next t ∧
      (t.reg a).toNat = (s.readByte (s.val b + zext16 off)).toNat +
        256 * (s.readByte (s.val b + zext16 off + 1)).toNat ∧ t.ip = s.ip ∧ Frame s t [a] []) ∧
    (∀ off : Word, ∃ t, exec (.loadwOff16 a b off) s = .next t ∧
      (t.reg a).toNat = (s.readByte (s.val b + off)).toNat +
        256 * (s.readByte (s.val b + off + 1)).toNat ∧ t.ip = s.ip ∧ Frame s t [a] [])

/-- `store` (R120, R123, decision D21): in its three offset forms exactly the byte at `(base + off) mod 2^16`
changes, to the low byte of the value; the other byte of the word is untouched. -/
def Obligations.StoreWritesExactlyOneByte : Prop :=
  ∀ (a b : Src) (s : State),
    (∃ t, exec (.store a b) s = .next t ∧
      (t.readByte (s.effAddr a 0)).toNat = (s.val b).toNat % 256 ∧ t.ip = s.ip ∧
      Frame s t [] [s.effAddr a 0]) ∧
    (∀ off : Byte, ∃ t, exec (.storeOff8 a b off) s = .next t ∧
      (t.readByte (s.effAddr a (zext16 off))).toNat = (s.val b).toNat % 256 ∧ t.ip = s.ip ∧
      Frame s t [] [s.effAddr a (zext16 off)]) ∧
    (∀ off : Word, ∃ t, exec (.storeOff16 a b off) s = .next t ∧
      (t.readByte (s.effAddr a off)).toNat = (s.val b).toNat % 256 ∧ t.ip = s.ip ∧
      Frame s t [] [s.effAddr a off])

/-- `storew` (R120, R124, decision D2): in its three offset forms the low byte goes to `ea = (base + off) mod 2^16`
and the high byte to `(ea + 1) mod 2^16`; no other byte changes. -/
def Obligations.StorewWritesExactlyTwoBytes : Prop :=
  ∀ (a b : Src) (s : State),
    (∃ t, exec (.storew a b) s = .next t ∧
      (t.readByte (s.effAddr a 0)).toNat = (s.val b).toNat % 256 ∧
      (t.readByte (s.effAddr a 0 + 1)).toNat = (s.val b).toNat / 256 ∧ t.ip = s.ip ∧
      Frame s t [] [s.effAddr a 0, s.effAddr a 0 + 1]) ∧
    (∀ off : Byte, ∃ t, exec (.storewOff8 a b off) s = .next t ∧
      (t.readByte (s.effAddr a (zext16 off))).toNat = (s.val b).toNat % 256 ∧
      (t.readByte (s.effAddr a (zext16 off) + 1)).toNat = (s.val b).toNat / 256 ∧ t.ip = s.ip ∧
      Frame s t [] [s.effAddr a (zext16 off), s.effAddr a (zext16 off) + 1]) ∧
    (∀ off : Word, ∃ t, exec (.storewOff16 a b off) s = .next t ∧
      (t.readByte (s.effAddr a off)).toNat = (s.val b).toNat % 256 ∧
      (t.readByte (s.effAddr a off + 1)).toNat = (s.val b).toNat / 256 ∧ t.ip = s.ip ∧
      Frame s t [] [s.effAddr a off, s.effAddr a off + 1])

/-- Byte store then byte load at the same address (source property S3), in every pairing of their three offset forms:
the loaded register is the stored byte, zero-extended, and the byte after it is what it was. `x` is the `ip`
between the two; base and offset may be spelled differently, as long as the address is the same. -/
def Obligations.StoreThenLoadGivesTheByte : Prop :=
  ∀ (base base' b : Src) (off off' : Word) (r : Reg) (i j : Instr) (s : State) (x : Word),
    IsStoreByte base b off i → IsLoadByte r base' off' j → s.effAddr base' off' = s.effAddr base off →
    ∃ t u, exec i s = .next t ∧ exec j (t.setIp x) = .next u ∧
      (u.reg r).toNat = (s.val b).toNat % 256 ∧
      u.readByte (s.effAddr base off + 1) = s.readByte (s.effAddr base off + 1)

/-- The framebuffer is plain memory (R38, R36): a byte stored at `SCREEN_BASE + r * SCREEN_WIDTH + c` is what the host
reads as the pixel at column `c` and row `r` (row-major order is decision D26), and no other pixel changes. -/
def Obligations.StoreToThePixelAddressIsThePixel : Prop :=
  ∀ (s : State) (v : Byte) (c r : Nat), s.params.screen.fits →
    c < s.params.screen.width → r < s.params.screen.height →
    ∃ t, exec (.store (.imm16 (BitVec.ofNat 16 (s.params.screen.base + r * s.params.screen.width + c)))
        (.imm8 v)) s = .next t ∧
      t.pixel c r = v ∧
      ∀ c' r', c' < s.params.screen.width → r' < s.params.screen.height → (c' ≠ c ∨ r' ≠ r) →
        t.pixel c' r' = s.pixel c' r'

/-! ## Disk instructions -/

/-- `read d, a, b` and `write d, a, b` for both drives (R130, R131, R132, decisions D8, D9, D15): rejected at once by
an event (not present, busy, for `write` then not writeable), else the drive becomes Busy from the present clock
value; no register and no memory changes, and the other drive does not. -/
def Obligations.DiskRequestsStartATransferOrPostAnError : Prop :=
  ∀ (i : Instr) (d : DriveId) (dir : Dir) (a b : Src) (s : State),
    (i = .read0 a b ∧ d = .zero ∧ dir = .rd) ∨ (i = .read1 a b ∧ d = .one ∧ dir = .rd) ∨
    (i = .write0 a b ∧ d = .zero ∧ dir = .wr) ∨ (i = .write1 a b ∧ d = .one ∧ dir = .wr) →
    ∃ t, exec i s = .next t ∧ t.ip = s.ip ∧ RegsKept s t [] ∧ MemKept s t [] ∧ RunStateKept s t ∧
      t.clock = s.clock ∧ t.keys = s.keys ∧ t.params = s.params ∧
      (∀ e, e ≠ d → t.drive e = s.drive e) ∧
      if (s.drive d).present = false then t.ev = ⟨diskFinished d, 1⟩ ∧ t.drive d = s.drive d
      else if (s.drive d).xfer ≠ .idle then t.ev = ⟨diskFinished d, 2⟩ ∧ t.drive d = s.drive d
      else if dir = .wr ∧ (s.drive d).readonly = true then
        t.ev = ⟨diskFinished d, 3⟩ ∧ t.drive d = s.drive d
      else t.ev = s.ev ∧
        t.drive d = { s.drive d with xfer := .busy dir s.clock (s.val a) (s.val b), idle := 0 }

/-! ## Promises about all instructions -/

/-- Registers are written only by the instructions of R11's list, and only the registers it names; guest memory
only by the stores, `push` and `call` (R35). -/
def Obligations.OnlyTheListedInstructionsWrite : Prop :=
  ∀ (i : Instr) (s t : State), exec i s = .next t →
    (∀ r : Reg, t.reg r ≠ s.reg r → r ∈ writtenRegs i) ∧
    (∀ a : Word, t.readByte a ≠ s.readByte a → storesMemory i = true)

/-- The event slot (R75): an instruction changes it only by consuming (`wait`, `poll`) or, a rejected `read` or
`write`, by posting its own drive's disk-finished event with payload 1, 2 or 3 (decision D8). -/
def Obligations.OnlyConsumersAndRejectionsChangeTheEvent : Prop :=
  ∀ (i : Instr) (s t : State), exec i s = .next t → t.ev ≠ s.ev →
    ((i = .wait ∨ i = .poll) ∧ t.ev = ⟨.none, 0⟩) ∨
    ∃ d, driveNamed i = some d ∧ t.ev.kind = diskFinished d ∧ t.ev.payload ∈ [1#16, 2#16, 3#16]

/-- The mode (R15): a step changes it from Running to Halted (`halt`, or an illegal instruction), from Running to
WaitingForEvent (a `wait` with nothing pending) and from WaitingForEvent to Running (an event is pending), and in
no other way. -/
def Obligations.ModeTransitionsAreTheListed : Prop :=
  ∀ s t : State, step s = .next t → t.mode ≠ s.mode →
    (s.mode = .running ∧ t.mode = .halted ∧
      ((∃ n, s.fetch = .ok (.halt, n) ∧ t.haltCause = .haltInstruction) ∨
        ∃ c, s.fetch = .error c ∧ t.haltCause = haltCauseOf c)) ∨
    (s.mode = .running ∧ t.mode = .waitingForEvent ∧ s.ev.kind = .none ∧
      ∃ n, s.fetch = .ok (.wait, n)) ∨
    (s.mode = .waitingForEvent ∧ t.mode = .running ∧ s.ev.kind ≠ .none)

/-- No instruction but `read` and `write` reads the clock (R201): with another clock value every other
instruction does the same. -/
def Obligations.InstructionsDoNotReadTheClock : Prop :=
  ∀ (i : Instr) (s t : State) (c : Nat), driveNamed i = none → exec i s = .next t →
    exec i { s with clock := c } = .next { t with clock := c }

/-- The parameters are configuration (R27): no step and no host operation changes one. (That State carries them is
the model's choice, log entry 1.) -/
def Obligations.ParametersNeverChange : Prop :=
  (∀ s t : State, step s = .next t → t.params = s.params) ∧
  ∀ (c : HostCall) (s t : State) (r : HostReply), hostCall c s = .next (r, t) → t.params = s.params

/-! ## Devices -/

/-- A `Tick` (R151, decision D14) adds one to the clock and leaves the guest's registers, `ip`, the mode and the
pressed keys alone; a drive that is Idle counts one cycle of idle time, saturating at 2^31 - 1 (R162, decision
D23). -/
def Obligations.TickCountsCyclesAndIdleTime : Prop :=
  ∀ s : State,
    s.tick.clock = s.clock + 1 ∧ s.tick.ip = s.ip ∧ RegsKept s s.tick [] ∧ RunStateKept s s.tick ∧
    s.tick.keys = s.keys ∧ s.tick.params = s.params ∧
    ∀ d, (s.drive d).xfer = .idle →
      s.tick.drive d = { s.drive d with idle := min ((s.drive d).idle + 1) 2147483647 }

/-- The events of one `Tick` (R148, R154, decision D14): drive 1's completion survives whatever else is posted, then
drive 0's; when no transfer completes, a screen-refresh event with payload 0 is posted exactly when the clock
becomes a multiple of `REFRESH_PERIOD`, and memory is as before. (The payload is decision D7.) -/
def Obligations.TheLastPostOfATickSurvives : Prop :=
  ∀ s : State,
    (Due s .one → s.tick.ev = ⟨.disk1Finished, 0⟩) ∧
    (Due s .zero → ¬ Due s .one → s.tick.ev = ⟨.disk0Finished, 0⟩) ∧
    (¬ Due s .zero → ¬ Due s .one →
      s.tick.ev = (if (s.clock + 1) % s.params.refreshPeriod = 0 then ⟨.screenRefresh, 0⟩ else s.ev) ∧
      MemKept s s.tick [])

/-- Completions (R39, R161, decisions D15, D16). When one drive completes in a `Tick`, its copy is made on the memory
before the `Tick`, and the memory after it is what that copy leaves. When both complete (R148, R151, decision D14),
drive 0's copy is made first and drive 1's on the memory `m` that it leaves. `CopyDone` says what one copy does:
the 4096 bytes land, both addresses wrapping, no other byte of either space changes, and the drive is Idle again
(dirty after a `write`). The event is that of the last drive to complete, with payload 0. -/
def Obligations.CompletionsMoveTheBytes : Prop :=
  (∀ (s : State) (d e : DriveId) (dir : Dir) (ma da : Word), Completing s d dir ma da → e ≠ d → ¬ Due s e →
    CopyDone dir ma da s.mem s.tick.mem (s.drive d) (s.tick.drive d) ∧
    s.tick.ev = ⟨diskFinished d, 0⟩) ∧
  (∀ (s : State) (dir0 dir1 : Dir) (ma0 da0 ma1 da1 : Word),
    Completing s .zero dir0 ma0 da0 → Completing s .one dir1 ma1 da1 →
    ∃ m, CopyDone dir0 ma0 da0 s.mem m (s.drive .zero) (s.tick.drive .zero) ∧
      CopyDone dir1 ma1 da1 m s.tick.mem (s.drive .one) (s.tick.drive .one) ∧
      s.tick.ev = ⟨.disk1Finished, 0⟩)

/-- What the host sees of the devices, and how it fills a disk buffer: `disk_buffer(d)` (R177, decision D24),
`screen_buffer()`, `screen_width()`, `screen_height()` (R178) and the drive-active indicator (R164). That an image is
read or replaced whole, and that a fill is refused while the drive is bound or when the image is not in canonical
form, is the model's choice (log entry 11). -/
def Obligations.HostAccessToBuffersAndScreen : Prop :=
  (∀ (s : State) (n : Nat) (d : DriveId), driveOfIndex n = some d →
    hostCall (.readBuffer n) s = .next (.image (s.drive d).image, s)) ∧
  (∀ (s : State) (n : Nat) (d : DriveId) (m : Memory), driveOfIndex n = some d →
    (s.drive d).present = false → m.wf Config.imageBytes →
    ∃ t, hostCall (.fillBuffer n m) s = .next (.ok, t) ∧
      t.drive d = { s.drive d with image := m } ∧
      (∀ e, e ≠ d → t.drive e = s.drive e) ∧ t.ev = s.ev ∧ t.mem = s.mem ∧ t.regs = s.regs ∧
      t.ip = s.ip ∧ t.clock = s.clock ∧ t.keys = s.keys ∧ t.params = s.params ∧ RunStateKept s t) ∧
  (∀ (s : State) (n : Nat) (d : DriveId) (m : Memory), driveOfIndex n = some d →
    (s.drive d).present = true ∨ ¬ m.wf Config.imageBytes →
    hostCall (.fillBuffer n m) s = .next (.refused, s)) ∧
  (∀ s : State, hostCall .screenBuffer s = .next (.number s.params.screen.base, s) ∧
    hostCall .screenWidth s = .next (.number s.params.screen.width, s) ∧
    hostCall .screenHeight s = .next (.number s.params.screen.height, s)) ∧
  ∀ (s : State) (d : DriveId), s.driveActive d = true ↔ 2 * (s.drive d).idle < s.params.cycleRate

/-- Completion time (R160, decision D15): a transfer accepted at clock value `t0` is still in flight as long as the
clock is below `t0 + DISK_TRANSFER_CYCLES`, and over in the `Tick` that reaches it, whatever the other drive does. -/
def Obligations.TransferEndsExactlyOnTime : Prop :=
  ∀ (s : State) (d : DriveId) (dir : Dir) (t0 : Nat) (ma da : Word),
    (s.drive d).xfer = .busy dir t0 ma da → t0 ≤ s.clock →
    s.clock < t0 + s.params.diskTransferCycles →
    (∀ k, s.clock + k < t0 + s.params.diskTransferCycles →
      ((s.ticks k).drive d).xfer = .busy dir t0 ma da) ∧
    ((s.ticks (t0 + s.params.diskTransferCycles - s.clock)).drive d).xfer = .idle

/-! ## The invariant -/

/-- Every step keeps the invariant: canonical memory and images, a halt cause exactly in Halted (R16), an empty
slot with payload 0 (R17), each pressed key listed once and in rising order (log entry 17), idle counters
within `IDLE_MAX` and 0 while Busy, a Busy drive present and not yet due (R160, R162, R176). The canonical
forms are the model's own (log entry 2). -/
def Obligations.StepKeepsTheInvariant : Prop :=
  ∀ s t : State, s.Inv → step s = .next t → t.Inv

/-- The reset state meets the invariant, and so does the reset state of a machine with any parameters that R5 allows and
its own `BOOT_IMAGE` and `COST`. (State.reset itself takes `BOOT_IMAGE` as all 0x00, log entry 2, and every cost as 1,
log entry 4; the rest of its OPEN parameters are opaque, log entry 1.) -/
def Obligations.ResetMeetsTheInvariant : Prop :=
  State.reset.Inv ∧
  ∀ p : Config.Params, ParamsOk p → State.Inv { State.reset with params := p, mem := p.bootImage }

/-- Every host operation keeps the invariant, `run` of any budget included. The canonical forms of memory and images
(log entry 2) and the rising order of the pressed keys (log entry 17) are the model's own. -/
def Obligations.HostCallsKeepTheInvariant : Prop :=
  ∀ (c : HostCall) (s t : State) (r : HostReply), s.Inv → hostCall c s = .next (r, t) → t.Inv

/-! ## The run loop -/

/-- With every cost 1, `run(n)` advances the clock by exactly `n` unless it stops early in Halted (R153, decisions
D12, D13). -/
def Obligations.RunAdvancesExactlyItsBudget : Prop :=
  ∀ (n : Nat) (s t : State), (∀ m, costIn s.params.cost m = 1) → run n s = .next t →
    t.mode ≠ .halted → t.clock = s.clock + n

/-- `run` always terminates (R153): when every cost is at least 1, more rounds than `run` allows itself change
nothing (the bound on the rounds is the model's, log entry 9). -/
def Obligations.RunNeedsNoMoreRounds : Prop :=
  ∀ (n fuel : Nat) (s : State), (∀ m, 1 ≤ costIn s.params.cost m) → 2 * n + 2 ≤ fuel →
    runLoop fuel n s = run n s

/-- The loop of R153 and `step` agree: with budget left, or with a wake-up due, a round of `run` is one `step`,
and the budget goes down by the cycles that the clock advanced; with the budget used up and no wake-up due, `run`
returns the state as it is, in whatever mode. -/
def Obligations.RunIteratesStep : Prop :=
  (∀ (fuel rem : Nat) (s t : State), s.mode ≠ .halted → step s = .next t →
    (1 ≤ rem ∨ (s.mode = .waitingForEvent ∧ s.ev.kind ≠ .none)) →
    runLoop (fuel + 1) rem s = runLoop fuel (rem - (t.clock - s.clock)) t) ∧
  ∀ (fuel : Nat) (s : State), (s.mode = .waitingForEvent → s.ev.kind = .none) →
    runLoop fuel 0 s = .next s

/-! ## The host -/

/-- `initialize()` and `reset()` (R26, R171, R190, decisions D6, D23, D24, D25), from any state: registers, `ip`,
clock and halt cause 0 or none, Running, an empty slot, no key pressed, memory the boot image, both drives
unbound, clean, writable and Idle with `idle` at 2^31 - 1; `initialize` zeroes the images, `reset` keeps them. -/
def Obligations.ResetRestoresTheInitialState : Prop :=
  ∀ (c : HostCall) (s : State), c = .init ∨ c = .reset →
    ∃ t, hostCall c s = .next (.done, t) ∧
      (∀ r, t.reg r = 0) ∧ t.ip = 0 ∧ t.mode = .running ∧ t.haltCause = .none ∧ t.ev = ⟨.none, 0⟩ ∧
      t.clock = 0 ∧ t.mem = s.params.bootImage ∧ t.keys = [] ∧ t.params = s.params ∧
      ∀ d, (t.drive d).present = false ∧ (t.drive d).dirty = false ∧ (t.drive d).readonly = false ∧
        (t.drive d).xfer = .idle ∧ (t.drive d).idle = 2147483647 ∧
        ∀ a, (t.drive d).image.read a = if c = .reset then (s.drive d).image.read a else 0x00

/-- `key_down` and `key_up` (R172, R173): a code that is not pressed becomes pressed and its key-down event is posted;
a pressed code is released and its key-up event is posted; in the other two cases nothing happens. Nothing but
the pressed keys and the event slot changes. A waiting core wakes at the next `run` (R147, decision D30): `run(0)`
delivers the posted event into A and B (decision D5; the kind codes are decision D7) at no cost in cycles, and a
`run` of any budget goes on from there. That last part asks every cost to be at least 1, as R5 does, because the
model bounds the rounds of `run` (log entry 9). -/
def Obligations.KeyEventsFireOnlyOnAChange : Prop :=
  (∀ (s : State) (code : Word),
    (code ∈ s.keys → hostCall (.keyDown code) s = .next (.done, s)) ∧
    (code ∉ s.keys → ∃ t, hostCall (.keyDown code) s = .next (.done, t) ∧
      (∀ k, k ∈ t.keys ↔ k ∈ s.keys ∨ k = code) ∧ t.ev = ⟨.keyDown, code⟩ ∧
      t = { s with keys := t.keys, ev := t.ev }) ∧
    (code ∉ s.keys → hostCall (.keyUp code) s = .next (.done, s)) ∧
    (code ∈ s.keys → ∃ t, hostCall (.keyUp code) s = .next (.done, t) ∧
      (∀ k, k ∈ t.keys ↔ k ∈ s.keys ∧ k ≠ code) ∧ t.ev = ⟨.keyUp, code⟩ ∧
      t = { s with keys := t.keys, ev := t.ev })) ∧
  ∀ (s t : State) (code : Word), s.mode = .waitingForEvent →
    (code ∉ s.keys ∧ hostCall (.keyDown code) s = .next (.done, t) ∨
      code ∈ s.keys ∧ hostCall (.keyUp code) s = .next (.done, t)) →
    ∃ w, run 0 t = .next w ∧ w.mode = .running ∧ w.reg .A = t.ev.kind.code ∧ w.reg .B = code ∧
      w.ev = ⟨.none, 0⟩ ∧
      ((∀ m, 1 ≤ costIn s.params.cost m) → ∀ n, run n t = run n w)

/-- Pressing a key that was up, however often the press is repeated, and releasing it (R172, R173, R145): the
key-up event is the one left in the slot and the pressed keys are what they were. -/
def Obligations.HeldKeyIsReportedOnce : Prop :=
  ∀ (s : State) (code : Word), code ∉ s.keys →
    (s.keyDown code).keyDown code = s.keyDown code ∧
    (s.keyDown code).ev = ⟨.keyDown, code⟩ ∧
    (s.keyDown code).keyUp code = s.post .keyUp code

/-- Host misuse: a bad drive index, and a rebinding or removal while the drive is Busy, are refused with a
distinguishable answer; no state changes and no event is posted (R175, R176, R181, decision D24). That the refusal
of a bad index covers the disk buffer and the statistics too is the model's deduction (log entry 14); filling a
buffer as one operation is its choice (log entry 11). -/
def Obligations.HostMisuseIsRefused : Prop :=
  ∀ (s : State) (d : Nat) (ro : Option Bool) (m : Memory),
    (2 ≤ d → hostCall (.insertDisk d ro) s = .next (.refused, s) ∧
      hostCall (.removeDisk d) s = .next (.refused, s) ∧
      hostCall (.readBuffer d) s = .next (.refused, s) ∧
      hostCall (.fillBuffer d m) s = .next (.refused, s) ∧
      hostCall (.diskStats d) s = .next (.refused, s)) ∧
    (∀ e, driveOfIndex d = some e → (s.drive e).xfer ≠ .idle →
      hostCall (.insertDisk d ro) s = .next (.refused, s) ∧
      hostCall (.removeDisk d) s = .next (.refused, s))

/-- `insert_disk` and `remove_disk` on an Idle drive (R175, R176, decisions D17, D24): binding sets present and the
read-only attribute (false when not supplied) and clears dirty; removing clears present only. No event is
posted, and the other drive and everything else are as before. -/
def Obligations.InsertAndRemoveBindTheDrive : Prop :=
  ∀ (s : State) (n : Nat) (d : DriveId) (ro : Option Bool), driveOfIndex n = some d →
    (s.drive d).xfer = .idle →
    (∃ t, hostCall (.insertDisk n ro) s = .next (.ok, t) ∧
      t.drive d = { s.drive d with present := true, dirty := false, readonly := ro.getD false } ∧
      (∀ e, e ≠ d → t.drive e = s.drive e) ∧ t.ev = s.ev ∧ t.mem = s.mem ∧ t.regs = s.regs ∧
      t.ip = s.ip ∧ t.clock = s.clock ∧ t.keys = s.keys ∧ RunStateKept s t) ∧
    (∃ t, hostCall (.removeDisk n) s = .next (.ok, t) ∧
      t.drive d = { s.drive d with present := false } ∧
      (∀ e, e ≠ d → t.drive e = s.drive e) ∧ t.ev = s.ev ∧ t.mem = s.mem ∧ t.regs = s.regs ∧
      t.ip = s.ip ∧ t.clock = s.clock ∧ t.keys = s.keys ∧ RunStateKept s t)

/-- `disk_stats` (R163, decision D23): for an idle counter within its bound, `dirty` is bit 31 of the answer and
`idle` its bits 30:0. -/
def Obligations.DiskStatsPacksDirtyAndIdle : Prop :=
  ∀ (s : State) (n : Nat) (d : DriveId), driveOfIndex n = some d → (s.drive d).idle ≤ 2147483647 →
    ∃ v, hostCall (.diskStats n) s = .next (.status v, s) ∧
      v.getLsbD 31 = (s.drive d).dirty ∧ (v.extractLsb' 0 31).toNat = (s.drive d).idle
end

