-- ==== Sys2Proof/Laws/Codec.lean ====
section
/-!
SUPPORT. The pieces of the encoding, one small lemma each: operand codes, the operand byte, immediates, and the
opcode map (30_encoding.md R51, R53, R56).
-/

namespace Sys2Proof

@[simp] theorem Reg.ofCode_code (r : Reg) : Reg.ofCode r.code = some r := by
  cases r <;> rfl

theorem Reg.code_lt (r : Reg) : r.code.toNat < 8 := by
  cases r <;> decide

@[simp] theorem codeA_operandByte (ca cb : BitVec 4) : codeA (operandByte ca cb) = ca := by
  apply BitVec.eq_of_toNat_eq
  simp only [codeA, operandByte, BitVec.toNat_ofNat]
  have := ca.isLt
  have := cb.isLt
  omega

@[simp] theorem codeB_operandByte (ca cb : BitVec 4) : codeB (operandByte ca cb) = cb := by
  apply BitVec.eq_of_toNat_eq
  simp only [codeB, operandByte, BitVec.toNat_ofNat]
  have := ca.isLt
  have := cb.isLt
  omega

/-- The two operand codes are all there is in an operand byte (R51). -/
theorem operandByte_codes (ob : Byte) : operandByte (codeA ob) (codeB ob) = ob := by
  apply BitVec.eq_of_toNat_eq
  simp only [codeA, codeB, operandByte, BitVec.toNat_ofNat]
  have := ob.isLt
  omega

@[simp] theorem Src.bytes_length (b : Src) : b.bytes.length = b.immLen := by
  cases b <;> rfl

theorem Src.immLen_le (b : Src) : b.immLen ≤ 2 := by
  cases b <;> simp [Src.immLen]

/-- The layout of each opcode byte of the map (R56), for the encoder's opcodes. -/
theorem opcodes_distinct : (opcodeMap.map Prod.fst).Nodup := by decide

theorem opcodeMap_length : opcodeMap.length = 41 := by decide

/-- An opcode byte outside the map has no layout (R59). -/
theorem layoutOf_eq_none_iff (op : Byte) : layoutOf op = none ↔ op ∉ opcodeMap.map Prod.fst := by
  unfold layoutOf
  generalize opcodeMap = l
  induction l with
  | nil => simp
  | cons c l ih =>
    obtain ⟨k, v⟩ := c
    simp only [List.lookup_cons, List.map_cons, List.mem_cons, not_or]
    by_cases h : op = k
    · simp [h]
    · have : (op == k) = false := by simpa using h
      simp [this, ih, h]

end Sys2Proof
end

