-- ==== Sys2Proof/Laws/State.lean ====
section
/-!
SUPPORT. One lemma per field per update of State, each true by `rfl` (or by the two cases of a drive number), so that
no later proof unfolds a record update.
-/

namespace Sys2Proof.Machine

@[simp] theorem State.setReg_regs (s : State) (r : Reg) (v : Word) :
    (s.setReg r v).regs = s.regs.put r v := rfl

@[simp] theorem State.setReg_ip (s : State) (r : Reg) (v : Word) :
    (s.setReg r v).ip = s.ip := rfl

@[simp] theorem State.setReg_mode (s : State) (r : Reg) (v : Word) :
    (s.setReg r v).mode = s.mode := rfl

@[simp] theorem State.setReg_haltCause (s : State) (r : Reg) (v : Word) :
    (s.setReg r v).haltCause = s.haltCause := rfl

@[simp] theorem State.setReg_ev (s : State) (r : Reg) (v : Word) :
    (s.setReg r v).ev = s.ev := rfl

@[simp] theorem State.setReg_clock (s : State) (r : Reg) (v : Word) :
    (s.setReg r v).clock = s.clock := rfl

@[simp] theorem State.setReg_mem (s : State) (r : Reg) (v : Word) :
    (s.setReg r v).mem = s.mem := rfl

@[simp] theorem State.setReg_drive0 (s : State) (r : Reg) (v : Word) :
    (s.setReg r v).drive0 = s.drive0 := rfl

@[simp] theorem State.setReg_drive1 (s : State) (r : Reg) (v : Word) :
    (s.setReg r v).drive1 = s.drive1 := rfl

@[simp] theorem State.setReg_keys (s : State) (r : Reg) (v : Word) :
    (s.setReg r v).keys = s.keys := rfl

@[simp] theorem State.setReg_params (s : State) (r : Reg) (v : Word) :
    (s.setReg r v).params = s.params := rfl

@[simp] theorem State.setIp_regs (s : State) (t : Word) :
    (s.setIp t).regs = s.regs := rfl

@[simp] theorem State.setIp_ip (s : State) (t : Word) :
    (s.setIp t).ip = t := rfl

@[simp] theorem State.setIp_mode (s : State) (t : Word) :
    (s.setIp t).mode = s.mode := rfl

@[simp] theorem State.setIp_haltCause (s : State) (t : Word) :
    (s.setIp t).haltCause = s.haltCause := rfl

@[simp] theorem State.setIp_ev (s : State) (t : Word) :
    (s.setIp t).ev = s.ev := rfl

@[simp] theorem State.setIp_clock (s : State) (t : Word) :
    (s.setIp t).clock = s.clock := rfl

@[simp] theorem State.setIp_mem (s : State) (t : Word) :
    (s.setIp t).mem = s.mem := rfl

@[simp] theorem State.setIp_drive0 (s : State) (t : Word) :
    (s.setIp t).drive0 = s.drive0 := rfl

@[simp] theorem State.setIp_drive1 (s : State) (t : Word) :
    (s.setIp t).drive1 = s.drive1 := rfl

@[simp] theorem State.setIp_keys (s : State) (t : Word) :
    (s.setIp t).keys = s.keys := rfl

@[simp] theorem State.setIp_params (s : State) (t : Word) :
    (s.setIp t).params = s.params := rfl

@[simp] theorem State.writeByte_regs (s : State) (a : Word) (v : Byte) :
    (s.writeByte a v).regs = s.regs := rfl

@[simp] theorem State.writeByte_ip (s : State) (a : Word) (v : Byte) :
    (s.writeByte a v).ip = s.ip := rfl

@[simp] theorem State.writeByte_mode (s : State) (a : Word) (v : Byte) :
    (s.writeByte a v).mode = s.mode := rfl

@[simp] theorem State.writeByte_haltCause (s : State) (a : Word) (v : Byte) :
    (s.writeByte a v).haltCause = s.haltCause := rfl

@[simp] theorem State.writeByte_ev (s : State) (a : Word) (v : Byte) :
    (s.writeByte a v).ev = s.ev := rfl

@[simp] theorem State.writeByte_clock (s : State) (a : Word) (v : Byte) :
    (s.writeByte a v).clock = s.clock := rfl

@[simp] theorem State.writeByte_mem (s : State) (a : Word) (v : Byte) :
    (s.writeByte a v).mem = s.mem.write a.toNat v := rfl

@[simp] theorem State.writeByte_drive0 (s : State) (a : Word) (v : Byte) :
    (s.writeByte a v).drive0 = s.drive0 := rfl

@[simp] theorem State.writeByte_drive1 (s : State) (a : Word) (v : Byte) :
    (s.writeByte a v).drive1 = s.drive1 := rfl

@[simp] theorem State.writeByte_keys (s : State) (a : Word) (v : Byte) :
    (s.writeByte a v).keys = s.keys := rfl

@[simp] theorem State.writeByte_params (s : State) (a : Word) (v : Byte) :
    (s.writeByte a v).params = s.params := rfl

@[simp] theorem State.writeWord_regs (s : State) (a v : Word) :
    (s.writeWord a v).regs = s.regs := rfl

@[simp] theorem State.writeWord_ip (s : State) (a v : Word) :
    (s.writeWord a v).ip = s.ip := rfl

@[simp] theorem State.writeWord_mode (s : State) (a v : Word) :
    (s.writeWord a v).mode = s.mode := rfl

@[simp] theorem State.writeWord_haltCause (s : State) (a v : Word) :
    (s.writeWord a v).haltCause = s.haltCause := rfl

@[simp] theorem State.writeWord_ev (s : State) (a v : Word) :
    (s.writeWord a v).ev = s.ev := rfl

@[simp] theorem State.writeWord_clock (s : State) (a v : Word) :
    (s.writeWord a v).clock = s.clock := rfl

@[simp] theorem State.writeWord_mem (s : State) (a v : Word) :
    (s.writeWord a v).mem = (s.mem.write a.toNat (loByte v)).write (a + 1).toNat (hiByte v) := rfl

@[simp] theorem State.writeWord_drive0 (s : State) (a v : Word) :
    (s.writeWord a v).drive0 = s.drive0 := rfl

@[simp] theorem State.writeWord_drive1 (s : State) (a v : Word) :
    (s.writeWord a v).drive1 = s.drive1 := rfl

@[simp] theorem State.writeWord_keys (s : State) (a v : Word) :
    (s.writeWord a v).keys = s.keys := rfl

@[simp] theorem State.writeWord_params (s : State) (a v : Word) :
    (s.writeWord a v).params = s.params := rfl

@[simp] theorem State.pushWord_regs (s : State) (v : Word) :
    (s.pushWord v).regs = s.regs.put .S (s.reg .S - 2) := rfl

@[simp] theorem State.pushWord_ip (s : State) (v : Word) :
    (s.pushWord v).ip = s.ip := rfl

@[simp] theorem State.pushWord_mode (s : State) (v : Word) :
    (s.pushWord v).mode = s.mode := rfl

@[simp] theorem State.pushWord_haltCause (s : State) (v : Word) :
    (s.pushWord v).haltCause = s.haltCause := rfl

@[simp] theorem State.pushWord_ev (s : State) (v : Word) :
    (s.pushWord v).ev = s.ev := rfl

@[simp] theorem State.pushWord_clock (s : State) (v : Word) :
    (s.pushWord v).clock = s.clock := rfl

@[simp] theorem State.pushWord_mem (s : State) (v : Word) :
    (s.pushWord v).mem = (s.writeWord (s.reg .S) v).mem := rfl

@[simp] theorem State.pushWord_drive0 (s : State) (v : Word) :
    (s.pushWord v).drive0 = s.drive0 := rfl

@[simp] theorem State.pushWord_drive1 (s : State) (v : Word) :
    (s.pushWord v).drive1 = s.drive1 := rfl

@[simp] theorem State.pushWord_keys (s : State) (v : Word) :
    (s.pushWord v).keys = s.keys := rfl

@[simp] theorem State.pushWord_params (s : State) (v : Word) :
    (s.pushWord v).params = s.params := rfl

@[simp] theorem State.raiseStack_regs (s : State) :
    (s.raiseStack).regs = s.regs.put .S (s.reg .S + 2) := rfl

@[simp] theorem State.raiseStack_ip (s : State) :
    (s.raiseStack).ip = s.ip := rfl

@[simp] theorem State.raiseStack_mode (s : State) :
    (s.raiseStack).mode = s.mode := rfl

@[simp] theorem State.raiseStack_haltCause (s : State) :
    (s.raiseStack).haltCause = s.haltCause := rfl

@[simp] theorem State.raiseStack_ev (s : State) :
    (s.raiseStack).ev = s.ev := rfl

@[simp] theorem State.raiseStack_clock (s : State) :
    (s.raiseStack).clock = s.clock := rfl

@[simp] theorem State.raiseStack_mem (s : State) :
    (s.raiseStack).mem = s.mem := rfl

@[simp] theorem State.raiseStack_drive0 (s : State) :
    (s.raiseStack).drive0 = s.drive0 := rfl

@[simp] theorem State.raiseStack_drive1 (s : State) :
    (s.raiseStack).drive1 = s.drive1 := rfl

@[simp] theorem State.raiseStack_keys (s : State) :
    (s.raiseStack).keys = s.keys := rfl

@[simp] theorem State.raiseStack_params (s : State) :
    (s.raiseStack).params = s.params := rfl

@[simp] theorem State.post_regs (s : State) (k : EventKind) (p : Word) :
    (s.post k p).regs = s.regs := rfl

@[simp] theorem State.post_ip (s : State) (k : EventKind) (p : Word) :
    (s.post k p).ip = s.ip := rfl

@[simp] theorem State.post_mode (s : State) (k : EventKind) (p : Word) :
    (s.post k p).mode = s.mode := rfl

@[simp] theorem State.post_haltCause (s : State) (k : EventKind) (p : Word) :
    (s.post k p).haltCause = s.haltCause := rfl

@[simp] theorem State.post_ev (s : State) (k : EventKind) (p : Word) :
    (s.post k p).ev = ⟨k, p⟩ := rfl

@[simp] theorem State.post_clock (s : State) (k : EventKind) (p : Word) :
    (s.post k p).clock = s.clock := rfl

@[simp] theorem State.post_mem (s : State) (k : EventKind) (p : Word) :
    (s.post k p).mem = s.mem := rfl

@[simp] theorem State.post_drive0 (s : State) (k : EventKind) (p : Word) :
    (s.post k p).drive0 = s.drive0 := rfl

@[simp] theorem State.post_drive1 (s : State) (k : EventKind) (p : Word) :
    (s.post k p).drive1 = s.drive1 := rfl

@[simp] theorem State.post_keys (s : State) (k : EventKind) (p : Word) :
    (s.post k p).keys = s.keys := rfl

@[simp] theorem State.post_params (s : State) (k : EventKind) (p : Word) :
    (s.post k p).params = s.params := rfl

@[simp] theorem State.postDisk_regs (s : State) (d : DriveId) (r : DiskResult) :
    (s.postDisk d r).regs = s.regs := rfl

@[simp] theorem State.postDisk_ip (s : State) (d : DriveId) (r : DiskResult) :
    (s.postDisk d r).ip = s.ip := rfl

@[simp] theorem State.postDisk_mode (s : State) (d : DriveId) (r : DiskResult) :
    (s.postDisk d r).mode = s.mode := rfl

@[simp] theorem State.postDisk_haltCause (s : State) (d : DriveId) (r : DiskResult) :
    (s.postDisk d r).haltCause = s.haltCause := rfl

@[simp] theorem State.postDisk_ev (s : State) (d : DriveId) (r : DiskResult) :
    (s.postDisk d r).ev = ⟨diskFinished d, r.code⟩ := rfl

@[simp] theorem State.postDisk_clock (s : State) (d : DriveId) (r : DiskResult) :
    (s.postDisk d r).clock = s.clock := rfl

@[simp] theorem State.postDisk_mem (s : State) (d : DriveId) (r : DiskResult) :
    (s.postDisk d r).mem = s.mem := rfl

@[simp] theorem State.postDisk_drive0 (s : State) (d : DriveId) (r : DiskResult) :
    (s.postDisk d r).drive0 = s.drive0 := rfl

@[simp] theorem State.postDisk_drive1 (s : State) (d : DriveId) (r : DiskResult) :
    (s.postDisk d r).drive1 = s.drive1 := rfl

@[simp] theorem State.postDisk_keys (s : State) (d : DriveId) (r : DiskResult) :
    (s.postDisk d r).keys = s.keys := rfl

@[simp] theorem State.postDisk_params (s : State) (d : DriveId) (r : DiskResult) :
    (s.postDisk d r).params = s.params := rfl

@[simp] theorem State.consume_regs (s : State) :
    (s.consume).regs = (s.regs.put .A s.ev.kind.code).put .B s.ev.payload := rfl

@[simp] theorem State.consume_ip (s : State) :
    (s.consume).ip = s.ip := rfl

@[simp] theorem State.consume_mode (s : State) :
    (s.consume).mode = s.mode := rfl

@[simp] theorem State.consume_haltCause (s : State) :
    (s.consume).haltCause = s.haltCause := rfl

@[simp] theorem State.consume_ev (s : State) :
    (s.consume).ev = Event.empty := rfl

@[simp] theorem State.consume_clock (s : State) :
    (s.consume).clock = s.clock := rfl

@[simp] theorem State.consume_mem (s : State) :
    (s.consume).mem = s.mem := rfl

@[simp] theorem State.consume_drive0 (s : State) :
    (s.consume).drive0 = s.drive0 := rfl

@[simp] theorem State.consume_drive1 (s : State) :
    (s.consume).drive1 = s.drive1 := rfl

@[simp] theorem State.consume_keys (s : State) :
    (s.consume).keys = s.keys := rfl

@[simp] theorem State.consume_params (s : State) :
    (s.consume).params = s.params := rfl

@[simp] theorem State.wakeUp_regs (s : State) :
    (s.wakeUp).regs = (s.regs.put .A s.ev.kind.code).put .B s.ev.payload := rfl

@[simp] theorem State.wakeUp_ip (s : State) :
    (s.wakeUp).ip = s.ip := rfl

@[simp] theorem State.wakeUp_mode (s : State) :
    (s.wakeUp).mode = .running := rfl

@[simp] theorem State.wakeUp_haltCause (s : State) :
    (s.wakeUp).haltCause = s.haltCause := rfl

@[simp] theorem State.wakeUp_ev (s : State) :
    (s.wakeUp).ev = Event.empty := rfl

@[simp] theorem State.wakeUp_clock (s : State) :
    (s.wakeUp).clock = s.clock := rfl

@[simp] theorem State.wakeUp_mem (s : State) :
    (s.wakeUp).mem = s.mem := rfl

@[simp] theorem State.wakeUp_drive0 (s : State) :
    (s.wakeUp).drive0 = s.drive0 := rfl

@[simp] theorem State.wakeUp_drive1 (s : State) :
    (s.wakeUp).drive1 = s.drive1 := rfl

@[simp] theorem State.wakeUp_keys (s : State) :
    (s.wakeUp).keys = s.keys := rfl

@[simp] theorem State.wakeUp_params (s : State) :
    (s.wakeUp).params = s.params := rfl

@[simp] theorem State.stop_regs (s : State) (c : HaltCause) :
    (s.stop c).regs = s.regs := rfl

@[simp] theorem State.stop_ip (s : State) (c : HaltCause) :
    (s.stop c).ip = s.ip := rfl

@[simp] theorem State.stop_mode (s : State) (c : HaltCause) :
    (s.stop c).mode = .halted := rfl

@[simp] theorem State.stop_haltCause (s : State) (c : HaltCause) :
    (s.stop c).haltCause = c := rfl

@[simp] theorem State.stop_ev (s : State) (c : HaltCause) :
    (s.stop c).ev = s.ev := rfl

@[simp] theorem State.stop_clock (s : State) (c : HaltCause) :
    (s.stop c).clock = s.clock := rfl

@[simp] theorem State.stop_mem (s : State) (c : HaltCause) :
    (s.stop c).mem = s.mem := rfl

@[simp] theorem State.stop_drive0 (s : State) (c : HaltCause) :
    (s.stop c).drive0 = s.drive0 := rfl

@[simp] theorem State.stop_drive1 (s : State) (c : HaltCause) :
    (s.stop c).drive1 = s.drive1 := rfl

@[simp] theorem State.stop_keys (s : State) (c : HaltCause) :
    (s.stop c).keys = s.keys := rfl

@[simp] theorem State.stop_params (s : State) (c : HaltCause) :
    (s.stop c).params = s.params := rfl

@[simp] theorem State.raiseIllegal_regs (s : State) (c : IllegalCause) :
    (s.raiseIllegal c).regs = s.regs := rfl

@[simp] theorem State.raiseIllegal_ip (s : State) (c : IllegalCause) :
    (s.raiseIllegal c).ip = s.ip := rfl

@[simp] theorem State.raiseIllegal_mode (s : State) (c : IllegalCause) :
    (s.raiseIllegal c).mode = .halted := rfl

@[simp] theorem State.raiseIllegal_haltCause (s : State) (c : IllegalCause) :
    (s.raiseIllegal c).haltCause = haltCauseOf c := rfl

@[simp] theorem State.raiseIllegal_ev (s : State) (c : IllegalCause) :
    (s.raiseIllegal c).ev = s.ev := rfl

@[simp] theorem State.raiseIllegal_clock (s : State) (c : IllegalCause) :
    (s.raiseIllegal c).clock = s.clock := rfl

@[simp] theorem State.raiseIllegal_mem (s : State) (c : IllegalCause) :
    (s.raiseIllegal c).mem = s.mem := rfl

@[simp] theorem State.raiseIllegal_drive0 (s : State) (c : IllegalCause) :
    (s.raiseIllegal c).drive0 = s.drive0 := rfl

@[simp] theorem State.raiseIllegal_drive1 (s : State) (c : IllegalCause) :
    (s.raiseIllegal c).drive1 = s.drive1 := rfl

@[simp] theorem State.raiseIllegal_keys (s : State) (c : IllegalCause) :
    (s.raiseIllegal c).keys = s.keys := rfl

@[simp] theorem State.raiseIllegal_params (s : State) (c : IllegalCause) :
    (s.raiseIllegal c).params = s.params := rfl

@[simp] theorem State.alu2_regs (s : State) (f : Word → Word → Word) (a : Reg) (b : Src) :
    (s.alu2 f a b).regs = s.regs.put a (f (s.reg a) (s.val b)) := rfl

@[simp] theorem State.alu2_ip (s : State) (f : Word → Word → Word) (a : Reg) (b : Src) :
    (s.alu2 f a b).ip = s.ip := rfl

@[simp] theorem State.alu2_mode (s : State) (f : Word → Word → Word) (a : Reg) (b : Src) :
    (s.alu2 f a b).mode = s.mode := rfl

@[simp] theorem State.alu2_haltCause (s : State) (f : Word → Word → Word) (a : Reg) (b : Src) :
    (s.alu2 f a b).haltCause = s.haltCause := rfl

@[simp] theorem State.alu2_ev (s : State) (f : Word → Word → Word) (a : Reg) (b : Src) :
    (s.alu2 f a b).ev = s.ev := rfl

@[simp] theorem State.alu2_clock (s : State) (f : Word → Word → Word) (a : Reg) (b : Src) :
    (s.alu2 f a b).clock = s.clock := rfl

@[simp] theorem State.alu2_mem (s : State) (f : Word → Word → Word) (a : Reg) (b : Src) :
    (s.alu2 f a b).mem = s.mem := rfl

@[simp] theorem State.alu2_drive0 (s : State) (f : Word → Word → Word) (a : Reg) (b : Src) :
    (s.alu2 f a b).drive0 = s.drive0 := rfl

@[simp] theorem State.alu2_drive1 (s : State) (f : Word → Word → Word) (a : Reg) (b : Src) :
    (s.alu2 f a b).drive1 = s.drive1 := rfl

@[simp] theorem State.alu2_keys (s : State) (f : Word → Word → Word) (a : Reg) (b : Src) :
    (s.alu2 f a b).keys = s.keys := rfl

@[simp] theorem State.alu2_params (s : State) (f : Word → Word → Word) (a : Reg) (b : Src) :
    (s.alu2 f a b).params = s.params := rfl

@[simp] theorem State.loadByte_regs (s : State) (a : Reg) (b : Src) (off : Word) :
    (s.loadByte a b off).regs = s.regs.put a (zext16 (s.readByte (s.effAddr b off))) := rfl

@[simp] theorem State.loadByte_ip (s : State) (a : Reg) (b : Src) (off : Word) :
    (s.loadByte a b off).ip = s.ip := rfl

@[simp] theorem State.loadByte_mode (s : State) (a : Reg) (b : Src) (off : Word) :
    (s.loadByte a b off).mode = s.mode := rfl

@[simp] theorem State.loadByte_haltCause (s : State) (a : Reg) (b : Src) (off : Word) :
    (s.loadByte a b off).haltCause = s.haltCause := rfl

@[simp] theorem State.loadByte_ev (s : State) (a : Reg) (b : Src) (off : Word) :
    (s.loadByte a b off).ev = s.ev := rfl

@[simp] theorem State.loadByte_clock (s : State) (a : Reg) (b : Src) (off : Word) :
    (s.loadByte a b off).clock = s.clock := rfl

@[simp] theorem State.loadByte_mem (s : State) (a : Reg) (b : Src) (off : Word) :
    (s.loadByte a b off).mem = s.mem := rfl

@[simp] theorem State.loadByte_drive0 (s : State) (a : Reg) (b : Src) (off : Word) :
    (s.loadByte a b off).drive0 = s.drive0 := rfl

@[simp] theorem State.loadByte_drive1 (s : State) (a : Reg) (b : Src) (off : Word) :
    (s.loadByte a b off).drive1 = s.drive1 := rfl

@[simp] theorem State.loadByte_keys (s : State) (a : Reg) (b : Src) (off : Word) :
    (s.loadByte a b off).keys = s.keys := rfl

@[simp] theorem State.loadByte_params (s : State) (a : Reg) (b : Src) (off : Word) :
    (s.loadByte a b off).params = s.params := rfl

@[simp] theorem State.loadWord_regs (s : State) (a : Reg) (b : Src) (off : Word) :
    (s.loadWord a b off).regs = s.regs.put a (s.readWord (s.effAddr b off)) := rfl

@[simp] theorem State.loadWord_ip (s : State) (a : Reg) (b : Src) (off : Word) :
    (s.loadWord a b off).ip = s.ip := rfl

@[simp] theorem State.loadWord_mode (s : State) (a : Reg) (b : Src) (off : Word) :
    (s.loadWord a b off).mode = s.mode := rfl

@[simp] theorem State.loadWord_haltCause (s : State) (a : Reg) (b : Src) (off : Word) :
    (s.loadWord a b off).haltCause = s.haltCause := rfl

@[simp] theorem State.loadWord_ev (s : State) (a : Reg) (b : Src) (off : Word) :
    (s.loadWord a b off).ev = s.ev := rfl

@[simp] theorem State.loadWord_clock (s : State) (a : Reg) (b : Src) (off : Word) :
    (s.loadWord a b off).clock = s.clock := rfl

@[simp] theorem State.loadWord_mem (s : State) (a : Reg) (b : Src) (off : Word) :
    (s.loadWord a b off).mem = s.mem := rfl

@[simp] theorem State.loadWord_drive0 (s : State) (a : Reg) (b : Src) (off : Word) :
    (s.loadWord a b off).drive0 = s.drive0 := rfl

@[simp] theorem State.loadWord_drive1 (s : State) (a : Reg) (b : Src) (off : Word) :
    (s.loadWord a b off).drive1 = s.drive1 := rfl

@[simp] theorem State.loadWord_keys (s : State) (a : Reg) (b : Src) (off : Word) :
    (s.loadWord a b off).keys = s.keys := rfl

@[simp] theorem State.loadWord_params (s : State) (a : Reg) (b : Src) (off : Word) :
    (s.loadWord a b off).params = s.params := rfl

@[simp] theorem State.storeByte_regs (s : State) (a b : Src) (off : Word) :
    (s.storeByte a b off).regs = s.regs := rfl

@[simp] theorem State.storeByte_ip (s : State) (a b : Src) (off : Word) :
    (s.storeByte a b off).ip = s.ip := rfl

@[simp] theorem State.storeByte_mode (s : State) (a b : Src) (off : Word) :
    (s.storeByte a b off).mode = s.mode := rfl

@[simp] theorem State.storeByte_haltCause (s : State) (a b : Src) (off : Word) :
    (s.storeByte a b off).haltCause = s.haltCause := rfl

@[simp] theorem State.storeByte_ev (s : State) (a b : Src) (off : Word) :
    (s.storeByte a b off).ev = s.ev := rfl

@[simp] theorem State.storeByte_clock (s : State) (a b : Src) (off : Word) :
    (s.storeByte a b off).clock = s.clock := rfl

@[simp] theorem State.storeByte_mem (s : State) (a b : Src) (off : Word) :
    (s.storeByte a b off).mem = s.mem.write (s.effAddr a off).toNat (loByte (s.val b)) := rfl

@[simp] theorem State.storeByte_drive0 (s : State) (a b : Src) (off : Word) :
    (s.storeByte a b off).drive0 = s.drive0 := rfl

@[simp] theorem State.storeByte_drive1 (s : State) (a b : Src) (off : Word) :
    (s.storeByte a b off).drive1 = s.drive1 := rfl

@[simp] theorem State.storeByte_keys (s : State) (a b : Src) (off : Word) :
    (s.storeByte a b off).keys = s.keys := rfl

@[simp] theorem State.storeByte_params (s : State) (a b : Src) (off : Word) :
    (s.storeByte a b off).params = s.params := rfl

@[simp] theorem State.storeWord_regs (s : State) (a b : Src) (off : Word) :
    (s.storeWord a b off).regs = s.regs := rfl

@[simp] theorem State.storeWord_ip (s : State) (a b : Src) (off : Word) :
    (s.storeWord a b off).ip = s.ip := rfl

@[simp] theorem State.storeWord_mode (s : State) (a b : Src) (off : Word) :
    (s.storeWord a b off).mode = s.mode := rfl

@[simp] theorem State.storeWord_haltCause (s : State) (a b : Src) (off : Word) :
    (s.storeWord a b off).haltCause = s.haltCause := rfl

@[simp] theorem State.storeWord_ev (s : State) (a b : Src) (off : Word) :
    (s.storeWord a b off).ev = s.ev := rfl

@[simp] theorem State.storeWord_clock (s : State) (a b : Src) (off : Word) :
    (s.storeWord a b off).clock = s.clock := rfl

@[simp] theorem State.storeWord_mem (s : State) (a b : Src) (off : Word) :
    (s.storeWord a b off).mem = (s.writeWord (s.effAddr a off) (s.val b)).mem := rfl

@[simp] theorem State.storeWord_drive0 (s : State) (a b : Src) (off : Word) :
    (s.storeWord a b off).drive0 = s.drive0 := rfl

@[simp] theorem State.storeWord_drive1 (s : State) (a b : Src) (off : Word) :
    (s.storeWord a b off).drive1 = s.drive1 := rfl

@[simp] theorem State.storeWord_keys (s : State) (a b : Src) (off : Word) :
    (s.storeWord a b off).keys = s.keys := rfl

@[simp] theorem State.storeWord_params (s : State) (a b : Src) (off : Word) :
    (s.storeWord a b off).params = s.params := rfl

@[simp] theorem State.refreshTimer_regs (s : State) :
    (s.refreshTimer).regs = s.regs := rfl

@[simp] theorem State.refreshTimer_ip (s : State) :
    (s.refreshTimer).ip = s.ip := rfl

@[simp] theorem State.refreshTimer_mode (s : State) :
    (s.refreshTimer).mode = s.mode := rfl

@[simp] theorem State.refreshTimer_haltCause (s : State) :
    (s.refreshTimer).haltCause = s.haltCause := rfl

@[simp] theorem State.refreshTimer_ev (s : State) :
    (s.refreshTimer).ev = if s.clock % s.params.refreshPeriod = 0 then ⟨.screenRefresh, 0⟩ else s.ev := rfl

@[simp] theorem State.refreshTimer_clock (s : State) :
    (s.refreshTimer).clock = s.clock := rfl

@[simp] theorem State.refreshTimer_mem (s : State) :
    (s.refreshTimer).mem = s.mem := rfl

@[simp] theorem State.refreshTimer_drive0 (s : State) :
    (s.refreshTimer).drive0 = s.drive0 := rfl

@[simp] theorem State.refreshTimer_drive1 (s : State) :
    (s.refreshTimer).drive1 = s.drive1 := rfl

@[simp] theorem State.refreshTimer_keys (s : State) :
    (s.refreshTimer).keys = s.keys := rfl

@[simp] theorem State.refreshTimer_params (s : State) :
    (s.refreshTimer).params = s.params := rfl

@[simp] theorem State.copyIn_regs (s : State) (d : DriveId) (ma da : Word) :
    (s.copyIn d ma da).regs = s.regs := rfl

@[simp] theorem State.copyIn_ip (s : State) (d : DriveId) (ma da : Word) :
    (s.copyIn d ma da).ip = s.ip := rfl

@[simp] theorem State.copyIn_mode (s : State) (d : DriveId) (ma da : Word) :
    (s.copyIn d ma da).mode = s.mode := rfl

@[simp] theorem State.copyIn_haltCause (s : State) (d : DriveId) (ma da : Word) :
    (s.copyIn d ma da).haltCause = s.haltCause := rfl

@[simp] theorem State.copyIn_ev (s : State) (d : DriveId) (ma da : Word) :
    (s.copyIn d ma da).ev = s.ev := rfl

@[simp] theorem State.copyIn_clock (s : State) (d : DriveId) (ma da : Word) :
    (s.copyIn d ma da).clock = s.clock := rfl

@[simp] theorem State.copyIn_drive0 (s : State) (d : DriveId) (ma da : Word) :
    (s.copyIn d ma da).drive0 = s.drive0 := rfl

@[simp] theorem State.copyIn_drive1 (s : State) (d : DriveId) (ma da : Word) :
    (s.copyIn d ma da).drive1 = s.drive1 := rfl

@[simp] theorem State.copyIn_keys (s : State) (d : DriveId) (ma da : Word) :
    (s.copyIn d ma da).keys = s.keys := rfl

@[simp] theorem State.copyIn_params (s : State) (d : DriveId) (ma da : Word) :
    (s.copyIn d ma da).params = s.params := rfl

@[simp] theorem State.setDrive_regs (s : State) (d : DriveId) (r : Drive) :
    (s.setDrive d r).regs = s.regs := by cases d <;> rfl

@[simp] theorem State.setDrive_ip (s : State) (d : DriveId) (r : Drive) :
    (s.setDrive d r).ip = s.ip := by cases d <;> rfl

@[simp] theorem State.setDrive_mode (s : State) (d : DriveId) (r : Drive) :
    (s.setDrive d r).mode = s.mode := by cases d <;> rfl

@[simp] theorem State.setDrive_haltCause (s : State) (d : DriveId) (r : Drive) :
    (s.setDrive d r).haltCause = s.haltCause := by cases d <;> rfl

@[simp] theorem State.setDrive_ev (s : State) (d : DriveId) (r : Drive) :
    (s.setDrive d r).ev = s.ev := by cases d <;> rfl

@[simp] theorem State.setDrive_clock (s : State) (d : DriveId) (r : Drive) :
    (s.setDrive d r).clock = s.clock := by cases d <;> rfl

@[simp] theorem State.setDrive_mem (s : State) (d : DriveId) (r : Drive) :
    (s.setDrive d r).mem = s.mem := by cases d <;> rfl

@[simp] theorem State.setDrive_keys (s : State) (d : DriveId) (r : Drive) :
    (s.setDrive d r).keys = s.keys := by cases d <;> rfl

@[simp] theorem State.setDrive_params (s : State) (d : DriveId) (r : Drive) :
    (s.setDrive d r).params = s.params := by cases d <;> rfl

@[simp] theorem State.startTransfer_regs (s : State) (d : DriveId) (dir : Dir) (ma da : Word) :
    (s.startTransfer d dir ma da).regs = s.regs := by cases d <;> rfl

@[simp] theorem State.startTransfer_ip (s : State) (d : DriveId) (dir : Dir) (ma da : Word) :
    (s.startTransfer d dir ma da).ip = s.ip := by cases d <;> rfl

@[simp] theorem State.startTransfer_mode (s : State) (d : DriveId) (dir : Dir) (ma da : Word) :
    (s.startTransfer d dir ma da).mode = s.mode := by cases d <;> rfl

@[simp] theorem State.startTransfer_haltCause (s : State) (d : DriveId) (dir : Dir) (ma da : Word) :
    (s.startTransfer d dir ma da).haltCause = s.haltCause := by cases d <;> rfl

@[simp] theorem State.startTransfer_ev (s : State) (d : DriveId) (dir : Dir) (ma da : Word) :
    (s.startTransfer d dir ma da).ev = s.ev := by cases d <;> rfl

@[simp] theorem State.startTransfer_clock (s : State) (d : DriveId) (dir : Dir) (ma da : Word) :
    (s.startTransfer d dir ma da).clock = s.clock := by cases d <;> rfl

@[simp] theorem State.startTransfer_mem (s : State) (d : DriveId) (dir : Dir) (ma da : Word) :
    (s.startTransfer d dir ma da).mem = s.mem := by cases d <;> rfl

@[simp] theorem State.startTransfer_keys (s : State) (d : DriveId) (dir : Dir) (ma da : Word) :
    (s.startTransfer d dir ma da).keys = s.keys := by cases d <;> rfl

@[simp] theorem State.startTransfer_params (s : State) (d : DriveId) (dir : Dir) (ma da : Word) :
    (s.startTransfer d dir ma da).params = s.params := by cases d <;> rfl

@[simp] theorem State.copyOut_regs (s : State) (d : DriveId) (ma da : Word) :
    (s.copyOut d ma da).regs = s.regs := by cases d <;> rfl

@[simp] theorem State.copyOut_ip (s : State) (d : DriveId) (ma da : Word) :
    (s.copyOut d ma da).ip = s.ip := by cases d <;> rfl

@[simp] theorem State.copyOut_mode (s : State) (d : DriveId) (ma da : Word) :
    (s.copyOut d ma da).mode = s.mode := by cases d <;> rfl

@[simp] theorem State.copyOut_haltCause (s : State) (d : DriveId) (ma da : Word) :
    (s.copyOut d ma da).haltCause = s.haltCause := by cases d <;> rfl

@[simp] theorem State.copyOut_ev (s : State) (d : DriveId) (ma da : Word) :
    (s.copyOut d ma da).ev = s.ev := by cases d <;> rfl

@[simp] theorem State.copyOut_clock (s : State) (d : DriveId) (ma da : Word) :
    (s.copyOut d ma da).clock = s.clock := by cases d <;> rfl

@[simp] theorem State.copyOut_mem (s : State) (d : DriveId) (ma da : Word) :
    (s.copyOut d ma da).mem = s.mem := by cases d <;> rfl

@[simp] theorem State.copyOut_keys (s : State) (d : DriveId) (ma da : Word) :
    (s.copyOut d ma da).keys = s.keys := by cases d <;> rfl

@[simp] theorem State.copyOut_params (s : State) (d : DriveId) (ma da : Word) :
    (s.copyOut d ma da).params = s.params := by cases d <;> rfl

@[simp] theorem State.endTransfer_regs (s : State) (d : DriveId) :
    (s.endTransfer d).regs = s.regs := by cases d <;> rfl

@[simp] theorem State.endTransfer_ip (s : State) (d : DriveId) :
    (s.endTransfer d).ip = s.ip := by cases d <;> rfl

@[simp] theorem State.endTransfer_mode (s : State) (d : DriveId) :
    (s.endTransfer d).mode = s.mode := by cases d <;> rfl

@[simp] theorem State.endTransfer_haltCause (s : State) (d : DriveId) :
    (s.endTransfer d).haltCause = s.haltCause := by cases d <;> rfl

@[simp] theorem State.endTransfer_ev (s : State) (d : DriveId) :
    (s.endTransfer d).ev = s.ev := by cases d <;> rfl

@[simp] theorem State.endTransfer_clock (s : State) (d : DriveId) :
    (s.endTransfer d).clock = s.clock := by cases d <;> rfl

@[simp] theorem State.endTransfer_mem (s : State) (d : DriveId) :
    (s.endTransfer d).mem = s.mem := by cases d <;> rfl

@[simp] theorem State.endTransfer_keys (s : State) (d : DriveId) :
    (s.endTransfer d).keys = s.keys := by cases d <;> rfl

@[simp] theorem State.endTransfer_params (s : State) (d : DriveId) :
    (s.endTransfer d).params = s.params := by cases d <;> rfl

/-! ## Drives by number -/

@[simp] theorem State.drive_zero (s : State) : s.drive .zero = s.drive0 := rfl

@[simp] theorem State.drive_one (s : State) : s.drive .one = s.drive1 := rfl

@[simp] theorem State.setDrive_drive_same (s : State) (d : DriveId) (r : Drive) :
    (s.setDrive d r).drive d = r := by cases d <;> rfl

theorem State.setDrive_drive_other (s : State) {d e : DriveId} (r : Drive) (h : e ≠ d) :
    (s.setDrive d r).drive e = s.drive e := by
  cases d <;> cases e <;> first | rfl | exact absurd rfl h

@[simp] theorem State.setReg_drive (s : State) (r : Reg) (v : Word) (d' : DriveId) :
    (s.setReg r v).drive d' = s.drive d' := by cases d' <;> rfl

@[simp] theorem State.setIp_drive (s : State) (t : Word) (d' : DriveId) :
    (s.setIp t).drive d' = s.drive d' := by cases d' <;> rfl

@[simp] theorem State.writeByte_drive (s : State) (a : Word) (v : Byte) (d' : DriveId) :
    (s.writeByte a v).drive d' = s.drive d' := by cases d' <;> rfl

@[simp] theorem State.writeWord_drive (s : State) (a v : Word) (d' : DriveId) :
    (s.writeWord a v).drive d' = s.drive d' := by cases d' <;> rfl

@[simp] theorem State.pushWord_drive (s : State) (v : Word) (d' : DriveId) :
    (s.pushWord v).drive d' = s.drive d' := by cases d' <;> rfl

@[simp] theorem State.raiseStack_drive (s : State) (d' : DriveId) :
    (s.raiseStack).drive d' = s.drive d' := by cases d' <;> rfl

@[simp] theorem State.post_drive (s : State) (k : EventKind) (p : Word) (d' : DriveId) :
    (s.post k p).drive d' = s.drive d' := by cases d' <;> rfl

@[simp] theorem State.postDisk_drive (s : State) (d : DriveId) (r : DiskResult) (d' : DriveId) :
    (s.postDisk d r).drive d' = s.drive d' := by cases d' <;> rfl

@[simp] theorem State.consume_drive (s : State) (d' : DriveId) :
    (s.consume).drive d' = s.drive d' := by cases d' <;> rfl

@[simp] theorem State.wakeUp_drive (s : State) (d' : DriveId) :
    (s.wakeUp).drive d' = s.drive d' := by cases d' <;> rfl

@[simp] theorem State.stop_drive (s : State) (c : HaltCause) (d' : DriveId) :
    (s.stop c).drive d' = s.drive d' := by cases d' <;> rfl

@[simp] theorem State.raiseIllegal_drive (s : State) (c : IllegalCause) (d' : DriveId) :
    (s.raiseIllegal c).drive d' = s.drive d' := by cases d' <;> rfl

@[simp] theorem State.alu2_drive (s : State) (f : Word → Word → Word) (a : Reg) (b : Src) (d' : DriveId) :
    (s.alu2 f a b).drive d' = s.drive d' := by cases d' <;> rfl

@[simp] theorem State.loadByte_drive (s : State) (a : Reg) (b : Src) (off : Word) (d' : DriveId) :
    (s.loadByte a b off).drive d' = s.drive d' := by cases d' <;> rfl

@[simp] theorem State.loadWord_drive (s : State) (a : Reg) (b : Src) (off : Word) (d' : DriveId) :
    (s.loadWord a b off).drive d' = s.drive d' := by cases d' <;> rfl

@[simp] theorem State.storeByte_drive (s : State) (a b : Src) (off : Word) (d' : DriveId) :
    (s.storeByte a b off).drive d' = s.drive d' := by cases d' <;> rfl

@[simp] theorem State.storeWord_drive (s : State) (a b : Src) (off : Word) (d' : DriveId) :
    (s.storeWord a b off).drive d' = s.drive d' := by cases d' <;> rfl

@[simp] theorem State.refreshTimer_drive (s : State) (d' : DriveId) :
    (s.refreshTimer).drive d' = s.drive d' := by cases d' <;> rfl

@[simp] theorem State.copyIn_drive (s : State) (d : DriveId) (ma da : Word) (d' : DriveId) :
    (s.copyIn d ma da).drive d' = s.drive d' := by cases d' <;> rfl

end Sys2Proof.Machine
end

