-- ==== Sys2Proof/Laws/Registers.lean ====
section
/-!
SUPPORT. Reading a register after each operation: the read-after-write law of the register file, and the frame of
the operations that leave it alone.
-/

namespace Sys2Proof.Machine

/-- Reading a register after a write gives the value written, any other register its old value (R10). -/
theorem State.reg_setReg (s : State) (r r' : Reg) (v : Word) :
    (s.setReg r v).reg r' = if r' = r then v else s.reg r' := by
  cases r <;> cases r' <;> rfl

@[simp] theorem State.reg_setReg_same (s : State) (r : Reg) (v : Word) :
    (s.setReg r v).reg r = v := by
  simp [State.reg_setReg]

theorem State.reg_setReg_other (s : State) {r r' : Reg} (v : Word) (h : r' ≠ r) :
    (s.setReg r v).reg r' = s.reg r' := by
  simp [State.reg_setReg, h]

/-- A register reads the register file and nothing else. -/
theorem State.reg_congr {s t : State} (h : t.regs = s.regs) (r : Reg) : t.reg r = s.reg r := by
  cases r <;> simp [State.reg, h]

@[simp] theorem State.setIp_reg (s : State) (t : Word) (r : Reg) : (s.setIp t).reg r = s.reg r :=
  State.reg_congr rfl r

@[simp] theorem State.writeByte_reg (s : State) (a : Word) (v : Byte) (r : Reg) :
    (s.writeByte a v).reg r = s.reg r :=
  State.reg_congr rfl r

@[simp] theorem State.writeWord_reg (s : State) (a v : Word) (r : Reg) :
    (s.writeWord a v).reg r = s.reg r :=
  State.reg_congr rfl r

@[simp] theorem State.post_reg (s : State) (k : EventKind) (p : Word) (r : Reg) :
    (s.post k p).reg r = s.reg r :=
  State.reg_congr rfl r

@[simp] theorem State.postDisk_reg (s : State) (d : DriveId) (k : DiskResult) (r : Reg) :
    (s.postDisk d k).reg r = s.reg r :=
  State.reg_congr rfl r

@[simp] theorem State.stop_reg (s : State) (c : HaltCause) (r : Reg) : (s.stop c).reg r = s.reg r :=
  State.reg_congr rfl r

@[simp] theorem State.setDrive_reg (s : State) (d : DriveId) (k : Drive) (r : Reg) :
    (s.setDrive d k).reg r = s.reg r :=
  State.reg_congr (by simp) r

/-- A push changes S, by -2 (R102). -/
theorem State.reg_pushWord (s : State) (v : Word) (r : Reg) :
    (s.pushWord v).reg r = if r = .S then s.reg .S - 2 else s.reg r := by
  simp [State.pushWord, State.reg_setReg]

/-- Raising the stack changes S, by +2 (R99). -/
theorem State.reg_raiseStack (s : State) (r : Reg) :
    s.raiseStack.reg r = if r = .S then s.reg .S + 2 else s.reg r := by
  simp [State.raiseStack, State.reg_setReg]

/-- Consumption writes A and B (R146). -/
theorem State.reg_consume (s : State) (r : Reg) :
    s.consume.reg r =
      if r = .B then s.ev.payload else if r = .A then s.ev.kind.code else s.reg r := by
  cases r <;> rfl

/-- Wake-up writes A and B (R147). -/
theorem State.reg_wakeUp (s : State) (r : Reg) : s.wakeUp.reg r = s.consume.reg r :=
  State.reg_congr rfl r

/-- A two-operand instruction writes its destination only (R80). -/
theorem State.reg_alu2 (s : State) (f : Word → Word → Word) (a : Reg) (b : Src) (r : Reg) :
    (s.alu2 f a b).reg r = if r = a then f (s.reg a) (s.val b) else s.reg r := by
  simp [State.alu2, State.reg_setReg]

/-- The value of an operand depends on the register file only (R53). -/
theorem State.val_congr {s t : State} (h : t.regs = s.regs) (b : Src) : t.val b = s.val b := by
  cases b <;> simp [State.val, State.reg_congr h]

@[simp] theorem State.setIp_val (s : State) (t : Word) (b : Src) : (s.setIp t).val b = s.val b :=
  State.val_congr rfl b

end Sys2Proof.Machine
end

