-- ==== Sys2Proof/Laws/Memory.lean ====
section
/-!
SUPPORT. Memory: read after write, the canonical form is kept, the block copy byte by byte; and the same for the
operations of the state that read and write guest memory.
-/

namespace Sys2Proof.Machine

/-! ## One byte -/

theorem Memory.read_insert (m : Memory) (a b : Nat) (v : Byte) :
    (m.insert a v).read b = if a = b then v else m.read b := by
  induction m with
  | nil => simp [Memory.insert, Memory.read]
  | cons c m ih =>
    obtain ⟨k, w⟩ := c
    simp only [Memory.insert]
    split
    · simp [Memory.read]
    · split
      · rename_i h
        subst h
        simp only [Memory.read]
        split <;> rfl
      · simp only [Memory.read, ih]
        grind

theorem Memory.read_filter (m : Memory) (a b : Nat) :
    Memory.read (m.filter (fun c => c.1 ≠ a)) b = if a = b then unlistedByte else m.read b := by
  induction m with
  | nil => simp [Memory.read]
  | cons c m ih =>
    obtain ⟨k, w⟩ := c
    by_cases h : k = a
    · subst h
      simp only [ne_eq, not_true_eq_false, decide_false, Bool.false_eq_true, not_false_eq_true,
        List.filter_cons_of_neg, Memory.read]
      simp only [ne_eq] at ih
      rw [ih]
      grind
    · simp only [ne_eq, h, not_false_eq_true, decide_true, List.filter_cons_of_pos, Memory.read]
      simp only [ne_eq] at ih
      rw [ih]
      grind

/-- Read after write: the written address gives the value written, every other address its old byte (R31, R32). -/
theorem Memory.read_write (m : Memory) (a b : Nat) (v : Byte) :
    (m.write a v).read b = if a = b then v else m.read b := by
  unfold Memory.write
  split
  · rename_i h
    rw [Memory.read_filter, h]
  · exact Memory.read_insert m a b v

/-- What an insertion lists: the new byte and bytes that were listed. -/
theorem Memory.mem_insert {m : Memory} {a : Nat} {v : Byte} {c : Host.Cell}
    (h : c ∈ m.insert a v) : c = (a, v) ∨ c ∈ m := by
  induction m with
  | nil => exact .inl (by simpa [Memory.insert] using h)
  | cons d m ih =>
    simp only [Memory.insert] at h
    split at h
    · grind
    · split at h
      · grind
      · grind

theorem Memory.insert_sorted (m : Memory) (a : Nat) (v : Byte)
    (h : m.Pairwise (fun c c' => c.1 < c'.1)) :
    (m.insert a v).Pairwise (fun c c' => c.1 < c'.1) := by
  induction m with
  | nil => simp [Memory.insert]
  | cons d m ih =>
    obtain ⟨hd, hm⟩ := List.pairwise_cons.1 h
    simp only [Memory.insert]
    split
    · refine List.pairwise_cons.2 ⟨fun c hc => ?_, h⟩
      rcases List.mem_cons.1 hc with rfl | hc
      · assumption
      · exact Nat.lt_trans ‹_› (hd c hc)
    · split
      · rename_i hk
        subst hk
        exact List.pairwise_cons.2 ⟨hd, hm⟩
      · refine List.pairwise_cons.2 ⟨fun c hc => ?_, ih hm⟩
        rcases Memory.mem_insert hc with rfl | hc
        · simp only
          omega
        · exact hd c hc

/-- A write below the size of the memory keeps the canonical form. -/
theorem Memory.write_wf {size : Nat} {m : Memory} (h : m.wf size) {a : Nat} (ha : a < size) (v : Byte) :
    (m.write a v).wf size := by
  obtain ⟨hs, hm⟩ := h
  unfold Memory.write
  split
  · exact ⟨hs.filter _, fun c hc => hm c (List.mem_filter.1 hc).1⟩
  · refine ⟨Memory.insert_sorted m a v hs, fun c hc => ?_⟩
    rcases Memory.mem_insert hc with rfl | hc
    · exact ⟨ha, ‹_›⟩
    · exact hm c hc

theorem Memory.nil_wf (size : Nat) : Memory.wf size [] := by
  simp [Memory.wf]

/-! ## The block copy (R39) -/

/-- An address that none of the first `n` bytes goes to keeps its byte. -/
theorem copyBlock_read_outside (src : Memory) (sb ss db ds n : Nat) (dst : Memory) (a : Nat)
    (h : ∀ i < n, (db + i) % ds ≠ a) :
    (copyBlock src sb ss db ds n dst).read a = dst.read a := by
  induction n with
  | zero => rfl
  | succ n ih =>
    rw [copyBlock, Memory.read_write, if_neg (h n (Nat.lt_succ_self n))]
    exact ih fun i hi => h i (Nat.lt_succ_of_lt hi)

theorem add_mod_ne {db ds i j : Nat} (hij : i < j) (hj : j < ds) : (db + j) % ds ≠ (db + i) % ds := by
  intro h
  have h1 : (db + j) ≡ (db + i) [MOD ds] := h
  have h2 : j ≡ i [MOD ds] := Nat.ModEq.add_left_cancel' db h1
  rw [Nat.ModEq, Nat.mod_eq_of_lt hj, Nat.mod_eq_of_lt (hij.trans hj)] at h2
  omega

/-- Byte `i` of the copy lands at its address, as long as the copy is no longer than the destination. -/
theorem copyBlock_read_inside (src : Memory) (sb ss db ds n : Nat) (dst : Memory) (hn : n ≤ ds)
    {i : Nat} (hi : i < n) :
    (copyBlock src sb ss db ds n dst).read ((db + i) % ds) = src.read ((sb + i) % ss) := by
  induction n with
  | zero => omega
  | succ n ih =>
    rw [copyBlock, Memory.read_write]
    by_cases h : i = n
    · subst h
      simp
    · rw [if_neg (add_mod_ne (by omega) (by omega))]
      exact ih (by omega) (by omega)

/-- The copy keeps the canonical form of its destination. -/
theorem copyBlock_wf (src : Memory) (sb ss db ds n : Nat) {dst : Memory} (h : dst.wf ds) (hd : 0 < ds) :
    (copyBlock src sb ss db ds n dst).wf ds := by
  induction n with
  | zero => exact h
  | succ n ih => exact Memory.write_wf ih (Nat.mod_lt _ hd) _

/-! ## Guest memory -/

theorem State.readByte_congr {s t : State} (h : t.mem = s.mem) (a : Word) : t.readByte a = s.readByte a := by
  simp [State.readByte, h]

theorem State.readWord_congr {s t : State} (h : t.mem = s.mem) (a : Word) : t.readWord a = s.readWord a := by
  simp [State.readWord, State.readByte_congr h]

/-- `MemRead` after `MemWrite` of one byte (R31, R32). -/
theorem State.readByte_writeByte (s : State) (a b : Word) (v : Byte) :
    (s.writeByte a v).readByte b = if b = a then v else s.readByte b := by
  simp only [State.readByte, State.writeByte_mem, Memory.read_write]
  by_cases h : b = a
  · simp [h]
  · have h' : ¬ a.toNat = b.toNat := fun e => h (BitVec.eq_of_toNat_eq e.symm)
    simp [h, h']

theorem word_ne_succ (a : Word) : a ≠ a + 1 := by
  bv_omega

/-- `MemRead` of one byte after `MemWrite` of two (R31, R32). -/
theorem State.readByte_writeWord (s : State) (a b v : Word) :
    (s.writeWord a v).readByte b =
      if b = a + 1 then hiByte v else if b = a then loByte v else s.readByte b := by
  simp [State.writeWord, State.readByte_writeByte]

theorem wordOfBytes_lo_hi (v : Word) : wordOfBytes (loByte v) (hiByte v) = v := by
  apply BitVec.eq_of_toNat_eq
  simp only [wordOfBytes, loByte, hiByte, BitVec.toNat_ofNat]
  have := v.isLt
  omega

/-- `MemRead` of two bytes after `MemWrite` of two at the same address (R31, R32). -/
theorem State.readWord_writeWord (s : State) (a v : Word) : (s.writeWord a v).readWord a = v := by
  simp [State.readWord, State.readByte_writeWord, wordOfBytes_lo_hi]

@[simp] theorem State.setReg_readByte (s : State) (r : Reg) (v a : Word) :
    (s.setReg r v).readByte a = s.readByte a := rfl

@[simp] theorem State.setReg_readWord (s : State) (r : Reg) (v a : Word) :
    (s.setReg r v).readWord a = s.readWord a := rfl

@[simp] theorem State.setIp_readByte (s : State) (t a : Word) :
    (s.setIp t).readByte a = s.readByte a := rfl

@[simp] theorem State.raiseStack_readWord (s : State) (a : Word) :
    s.raiseStack.readWord a = s.readWord a := rfl

/-- The bytes after a push: the word at the old S, everything else as before (R102). -/
theorem State.readByte_pushWord (s : State) (v b : Word) :
    (s.pushWord v).readByte b =
      if b = s.reg .S + 1 then hiByte v else if b = s.reg .S then loByte v else s.readByte b := by
  rw [State.pushWord, State.setReg_readByte, State.readByte_writeWord]

theorem Word.lt_memSize (a : Word) : a.toNat < Config.memSize := a.isLt

/-- A one-byte write keeps guest memory canonical. -/
theorem State.writeByte_mem_wf {s : State} (h : s.mem.wf Config.memSize) (a : Word) (v : Byte) :
    (s.writeByte a v).mem.wf Config.memSize :=
  Memory.write_wf h (Word.lt_memSize a) v

/-- A two-byte write keeps guest memory canonical. -/
theorem State.writeWord_mem_wf {s : State} (h : s.mem.wf Config.memSize) (a v : Word) :
    (s.writeWord a v).mem.wf Config.memSize :=
  State.writeByte_mem_wf (State.writeByte_mem_wf h a _) _ _

/-- A push keeps guest memory canonical. -/
theorem State.pushWord_mem_wf {s : State} (h : s.mem.wf Config.memSize) (v : Word) :
    (s.pushWord v).mem.wf Config.memSize :=
  State.writeWord_mem_wf h _ v

/-- The reset memory is canonical. -/
theorem State.reset_mem_wf : State.reset.mem.wf Config.memSize := Memory.nil_wf _

end Sys2Proof.Machine
end

