-- ==== Sys2Proof/Laws/Devices.lean ====
section
/-!
SUPPORT. What one drive, one `Tick` and several `Tick`s can do, said once (60_exceptions.md R151, R161, R162).
-/

namespace Sys2Proof.Machine

/-! ## Completion (R161) -/

section
variable (s : State) (d : DriveId) (dir : Dir) (ma da : Word)

@[simp] theorem State.complete_regs : (s.complete d dir ma da).regs = s.regs := by
  cases dir <;> cases d <;> rfl

@[simp] theorem State.complete_ip : (s.complete d dir ma da).ip = s.ip := by
  cases dir <;> cases d <;> rfl

@[simp] theorem State.complete_mode : (s.complete d dir ma da).mode = s.mode := by
  cases dir <;> cases d <;> rfl

@[simp] theorem State.complete_haltCause : (s.complete d dir ma da).haltCause = s.haltCause := by
  cases dir <;> cases d <;> rfl

@[simp] theorem State.complete_ev : (s.complete d dir ma da).ev = ⟨diskFinished d, 0⟩ := by
  cases dir <;> cases d <;> rfl

@[simp] theorem State.complete_clock : (s.complete d dir ma da).clock = s.clock := by
  cases dir <;> cases d <;> rfl

@[simp] theorem State.complete_keys : (s.complete d dir ma da).keys = s.keys := by
  cases dir <;> cases d <;> rfl

@[simp] theorem State.complete_params : (s.complete d dir ma da).params = s.params := by
  cases dir <;> cases d <;> rfl

/-- A `read` transfer writes guest memory. -/
theorem State.complete_rd_mem : (s.complete d .rd ma da).mem = (s.copyIn d ma da).mem := by
  cases d <;> rfl

/-- A `write` transfer leaves guest memory alone. -/
theorem State.complete_wr_mem : (s.complete d .wr ma da).mem = s.mem := by
  cases d <;> rfl

/-- The drive record after a completed `read`. -/
theorem State.complete_rd_drive :
    (s.complete d .rd ma da).drive d = { s.drive d with xfer := .idle, idle := 0 } := by
  cases d <;> rfl

/-- The drive record after a completed `write`. -/
theorem State.complete_wr_drive :
    (s.complete d .wr ma da).drive d =
      { (s.copyOut d ma da).drive d with xfer := .idle, idle := 0 } := by
  cases d <;> rfl

/-- The other drive is untouched. -/
theorem State.complete_drive_other {e : DriveId} (h : e ≠ d) :
    (s.complete d dir ma da).drive e = s.drive e := by
  cases d <;> cases e <;> first | exact absurd rfl h | (cases dir <;> rfl)

end

/-! ## One drive in one `Tick` (R151) -/

/-- Everything `driveTick` can do: complete a due transfer, wait for one, or count idle time. -/
theorem State.driveTick_cases (s : State) (d : DriveId) :
    (∃ dir t0 ma da, (s.drive d).xfer = .busy dir t0 ma da ∧
      s.params.diskTransferCycles ≤ s.clock - t0 ∧ s.driveTick d = s.complete d dir ma da) ∨
    (∃ dir t0 ma da, (s.drive d).xfer = .busy dir t0 ma da ∧
      s.clock - t0 < s.params.diskTransferCycles ∧ s.driveTick d = s) ∨
    ((s.drive d).xfer = .idle ∧
      s.driveTick d =
        s.setDrive d { s.drive d with idle := min ((s.drive d).idle + 1) Config.idleMax }) := by
  unfold State.driveTick
  split
  · rename_i dir t0 ma da hx
    split
    · exact .inl ⟨dir, t0, ma, da, hx, ‹_›, rfl⟩
    · exact .inr (.inl ⟨dir, t0, ma, da, hx, Nat.lt_of_not_le ‹_›, rfl⟩)
  · rename_i hx
    exact .inr (.inr ⟨hx, rfl⟩)

section
variable (s : State) (d : DriveId)

@[simp] theorem State.driveTick_regs : (s.driveTick d).regs = s.regs := by
  rcases s.driveTick_cases d with ⟨_, _, _, _, _, _, h⟩ | ⟨_, _, _, _, _, _, h⟩ | ⟨_, h⟩ <;> simp [h]

@[simp] theorem State.driveTick_ip : (s.driveTick d).ip = s.ip := by
  rcases s.driveTick_cases d with ⟨_, _, _, _, _, _, h⟩ | ⟨_, _, _, _, _, _, h⟩ | ⟨_, h⟩ <;> simp [h]

@[simp] theorem State.driveTick_mode : (s.driveTick d).mode = s.mode := by
  rcases s.driveTick_cases d with ⟨_, _, _, _, _, _, h⟩ | ⟨_, _, _, _, _, _, h⟩ | ⟨_, h⟩ <;> simp [h]

@[simp] theorem State.driveTick_haltCause : (s.driveTick d).haltCause = s.haltCause := by
  rcases s.driveTick_cases d with ⟨_, _, _, _, _, _, h⟩ | ⟨_, _, _, _, _, _, h⟩ | ⟨_, h⟩ <;> simp [h]

@[simp] theorem State.driveTick_clock : (s.driveTick d).clock = s.clock := by
  rcases s.driveTick_cases d with ⟨_, _, _, _, _, _, h⟩ | ⟨_, _, _, _, _, _, h⟩ | ⟨_, h⟩ <;> simp [h]

@[simp] theorem State.driveTick_keys : (s.driveTick d).keys = s.keys := by
  rcases s.driveTick_cases d with ⟨_, _, _, _, _, _, h⟩ | ⟨_, _, _, _, _, _, h⟩ | ⟨_, h⟩ <;> simp [h]

@[simp] theorem State.driveTick_params : (s.driveTick d).params = s.params := by
  rcases s.driveTick_cases d with ⟨_, _, _, _, _, _, h⟩ | ⟨_, _, _, _, _, _, h⟩ | ⟨_, h⟩ <;> simp [h]

/-- A drive's part of a `Tick` leaves the other drive's record alone (R158). -/
theorem State.driveTick_drive_other {e : DriveId} (he : e ≠ d) : (s.driveTick d).drive e = s.drive e := by
  rcases s.driveTick_cases d with ⟨_, _, _, _, _, _, h⟩ | ⟨_, _, _, _, _, _, h⟩ | ⟨_, h⟩
  · rw [h, State.complete_drive_other _ _ _ _ _ he]
  · rw [h]
  · rw [h, State.setDrive_drive_other _ _ he]

end

/-! ## `Tick` (R151) -/

/-- The state of a `Tick` after the clock and the refresh timer, before the drives. -/
def State.clocked (s : State) : State :=
  ({ s with clock := s.clock + 1 } : State).refreshTimer

theorem State.tick_eq (s : State) : s.tick = (s.clocked.driveTick .zero).driveTick .one := rfl

section
variable (s : State)

@[simp] theorem State.clocked_regs : s.clocked.regs = s.regs := rfl
@[simp] theorem State.clocked_ip : s.clocked.ip = s.ip := rfl
@[simp] theorem State.clocked_mode : s.clocked.mode = s.mode := rfl
@[simp] theorem State.clocked_haltCause : s.clocked.haltCause = s.haltCause := rfl
@[simp] theorem State.clocked_clock : s.clocked.clock = s.clock + 1 := rfl
@[simp] theorem State.clocked_mem : s.clocked.mem = s.mem := rfl
@[simp] theorem State.clocked_drive (d : DriveId) : s.clocked.drive d = s.drive d := by cases d <;> rfl
@[simp] theorem State.clocked_drive0 : s.clocked.drive0 = s.drive0 := rfl
@[simp] theorem State.clocked_drive1 : s.clocked.drive1 = s.drive1 := rfl
@[simp] theorem State.clocked_keys : s.clocked.keys = s.keys := rfl
@[simp] theorem State.clocked_params : s.clocked.params = s.params := rfl
theorem State.clocked_ev :
    s.clocked.ev = if (s.clock + 1) % s.params.refreshPeriod = 0 then ⟨.screenRefresh, 0⟩ else s.ev := rfl

@[simp] theorem State.tick_regs : s.tick.regs = s.regs := by simp [State.tick_eq]
@[simp] theorem State.tick_ip : s.tick.ip = s.ip := by simp [State.tick_eq]
@[simp] theorem State.tick_mode : s.tick.mode = s.mode := by simp [State.tick_eq]
@[simp] theorem State.tick_haltCause : s.tick.haltCause = s.haltCause := by simp [State.tick_eq]
@[simp] theorem State.tick_clock : s.tick.clock = s.clock + 1 := by simp [State.tick_eq]
@[simp] theorem State.tick_keys : s.tick.keys = s.keys := by simp [State.tick_eq]
@[simp] theorem State.tick_params : s.tick.params = s.params := by simp [State.tick_eq]

end

/-! ## Several `Tick`s (R153) -/

/-- What every `Tick` keeps, every number of `Tick`s keeps. -/
theorem State.ticks_induct {P : State → Prop} (h : ∀ s, P s → P s.tick) :
    ∀ (c : Nat) (s : State), P s → P (s.ticks c)
  | 0, _, hs => hs
  | c + 1, s, hs => State.ticks_induct h c s.tick (h s hs)

@[simp] theorem State.ticks_regs (s : State) (c : Nat) : (s.ticks c).regs = s.regs :=
  State.ticks_induct (P := fun t => t.regs = s.regs) (by simp) c s rfl

@[simp] theorem State.ticks_ip (s : State) (c : Nat) : (s.ticks c).ip = s.ip :=
  State.ticks_induct (P := fun t => t.ip = s.ip) (by simp) c s rfl

@[simp] theorem State.ticks_mode (s : State) (c : Nat) : (s.ticks c).mode = s.mode :=
  State.ticks_induct (P := fun t => t.mode = s.mode) (by simp) c s rfl

@[simp] theorem State.ticks_haltCause (s : State) (c : Nat) : (s.ticks c).haltCause = s.haltCause :=
  State.ticks_induct (P := fun t => t.haltCause = s.haltCause) (by simp) c s rfl

@[simp] theorem State.ticks_keys (s : State) (c : Nat) : (s.ticks c).keys = s.keys :=
  State.ticks_induct (P := fun t => t.keys = s.keys) (by simp) c s rfl

@[simp] theorem State.ticks_params (s : State) (c : Nat) : (s.ticks c).params = s.params :=
  State.ticks_induct (P := fun t => t.params = s.params) (by simp) c s rfl

/-- `c` `Tick`s advance the clock by `c` (R150, R151). -/
@[simp] theorem State.ticks_clock : ∀ (c : Nat) (s : State), (s.ticks c).clock = s.clock + c
  | 0, _ => rfl
  | c + 1, s => by
    rw [State.ticks, State.ticks_clock c s.tick, State.tick_clock]
    omega

end Sys2Proof.Machine
end

