-- ==== Sys2Proof/Laws/Disk.lean ====
section
/-!
SUPPORT. Everything a disk request can do (44_disk_io.md R130, R131), and the bytes of the two block copies
(20_memory.md R39).
-/

namespace Sys2Proof.Machine

/-- Everything `read d` can do: reject (not present, busy) or start a transfer. -/
theorem State.requestRead_cases (s : State) (d : DriveId) (ma da : Word) :
    ((s.drive d).present = false ∧ s.requestRead d ma da = s.postDisk d .notPresent) ∨
    ((s.drive d).present = true ∧ (s.drive d).xfer ≠ .idle ∧
      s.requestRead d ma da = s.postDisk d .diskBusy) ∨
    ((s.drive d).present = true ∧ (s.drive d).xfer = .idle ∧
      s.requestRead d ma da = s.startTransfer d .rd ma da) := by
  unfold State.requestRead
  split
  · exact .inl ⟨‹_›, rfl⟩
  · have hp : (s.drive d).present = true := by simpa using ‹¬ (s.drive d).present = false›
    split
    · exact .inr (.inl ⟨hp, ‹_›, rfl⟩)
    · exact .inr (.inr ⟨hp, not_not.1 ‹_›, rfl⟩)

/-- Everything `write d` can do: reject (not present, busy, not writeable) or start a transfer. -/
theorem State.requestWrite_cases (s : State) (d : DriveId) (ma da : Word) :
    ((s.drive d).present = false ∧ s.requestWrite d ma da = s.postDisk d .notPresent) ∨
    ((s.drive d).present = true ∧ (s.drive d).xfer ≠ .idle ∧
      s.requestWrite d ma da = s.postDisk d .diskBusy) ∨
    ((s.drive d).present = true ∧ (s.drive d).xfer = .idle ∧ (s.drive d).readonly = true ∧
      s.requestWrite d ma da = s.postDisk d .notWriteable) ∨
    ((s.drive d).present = true ∧ (s.drive d).xfer = .idle ∧ (s.drive d).readonly = false ∧
      s.requestWrite d ma da = s.startTransfer d .wr ma da) := by
  unfold State.requestWrite
  split
  · exact .inl ⟨‹_›, rfl⟩
  · have hp : (s.drive d).present = true := by simpa using ‹¬ (s.drive d).present = false›
    split
    · exact .inr (.inl ⟨hp, ‹_›, rfl⟩)
    · have hx : (s.drive d).xfer = .idle := not_not.1 ‹_›
      split
      · exact .inr (.inr (.inl ⟨hp, hx, ‹_›, rfl⟩))
      · exact .inr (.inr (.inr ⟨hp, hx, by simpa using ‹¬ (s.drive d).readonly = true›, rfl⟩))

/-- The drive record after an accepted request. -/
theorem State.startTransfer_drive (s : State) (d : DriveId) (dir : Dir) (ma da : Word) :
    (s.startTransfer d dir ma da).drive d =
      { s.drive d with xfer := .busy dir s.clock ma da, idle := 0 } := by
  simp [State.startTransfer]

/-- The other drive after an accepted request. -/
theorem State.startTransfer_drive_other (s : State) {d e : DriveId} (dir : Dir) (ma da : Word)
    (h : e ≠ d) : (s.startTransfer d dir ma da).drive e = s.drive e := by
  rw [State.startTransfer, State.setDrive_drive_other _ _ h]

/-- Byte `i` of a completed `read` (R39). -/
theorem State.copyIn_read (s : State) (d : DriveId) (ma da : Word) {i : Nat} (hi : i < 4096) :
    (s.copyIn d ma da).mem.read ((ma.toNat + i) % 65536) =
      (s.drive d).image.read ((da.toNat * 16 + i) % 1048576) :=
  copyBlock_read_inside _ _ _ _ _ 4096 _ (by decide) hi

/-- Guest memory outside the window of a completed `read`. -/
theorem State.copyIn_read_outside (s : State) (d : DriveId) (ma da : Word) (a : Nat)
    (h : ∀ i < 4096, (ma.toNat + i) % 65536 ≠ a) : (s.copyIn d ma da).mem.read a = s.mem.read a :=
  copyBlock_read_outside _ _ _ _ _ 4096 _ a h

/-- Byte `i` of a completed `write` (R39). -/
theorem State.copyOut_read (s : State) (d : DriveId) (ma da : Word) {i : Nat} (hi : i < 4096) :
    ((s.copyOut d ma da).drive d).image.read ((da.toNat * 16 + i) % 1048576) =
      s.mem.read ((ma.toNat + i) % 65536) := by
  rw [State.copyOut, State.setDrive_drive_same]
  exact copyBlock_read_inside _ _ _ _ _ 4096 _ (by decide) hi

/-- The image outside the range of a completed `write`. -/
theorem State.copyOut_read_outside (s : State) (d : DriveId) (ma da : Word) (a : Nat)
    (h : ∀ i < 4096, (da.toNat * 16 + i) % 1048576 ≠ a) :
    ((s.copyOut d ma da).drive d).image.read a = (s.drive d).image.read a := by
  rw [State.copyOut, State.setDrive_drive_same]
  exact copyBlock_read_outside _ _ _ _ _ 4096 _ a h

/-- A completed `read` keeps guest memory canonical. -/
theorem State.copyIn_mem_wf {s : State} (h : s.mem.wf Config.memSize) (d : DriveId) (ma da : Word) :
    (s.copyIn d ma da).mem.wf Config.memSize :=
  copyBlock_wf _ _ _ _ _ _ h (by decide)

/-- A completed `write` keeps the image canonical. -/
theorem State.copyOut_image_wf {s : State} {d : DriveId} (h : (s.drive d).image.wf Config.imageBytes)
    (ma da : Word) : ((s.copyOut d ma da).drive d).image.wf Config.imageBytes := by
  rw [State.copyOut, State.setDrive_drive_same]
  exact copyBlock_wf _ _ _ _ _ _ h (by decide)

end Sys2Proof.Machine
end

