-- ==== Sys2Proof/Laws/Engine.lean ====
section
/-!
SUPPORT. What `stepInstr`, `step` and one round of `run` answer, case by case (60_exceptions.md R152, R153).
-/

namespace Sys2Proof.Machine

theorem stepInstr_of_illegal {s : State} {c : IllegalCause} (h : s.fetch = .error c) :
    stepInstr s = .next (s.raiseIllegal c, 0) := by
  simp [stepInstr, h]

theorem stepInstr_of_next {s t : State} {i : Instr} {n : Nat} (h : s.fetch = .ok (i, n))
    (he : exec i (s.setIp (s.nextIp n)) = .next t) : stepInstr s = .next (t, s.cost i) := by
  simp [stepInstr, h, he]

/-- If `stepInstr` answers a next state, either the exception was taken or the decoded instruction ran. -/
theorem stepInstr_cases {s t : State} {c : Nat} (h : stepInstr s = .next (t, c)) :
    (∃ e, s.fetch = .error e ∧ t = s.raiseIllegal e ∧ c = 0) ∨
    (∃ i n, s.fetch = .ok (i, n) ∧ exec i (s.setIp (s.nextIp n)) = .next t ∧ c = s.cost i) := by
  unfold stepInstr at h
  split at h
  · rename_i e he
    cases h
    exact .inl ⟨e, he, rfl, rfl⟩
  · rename_i i n hf
    split at h
    · rename_i u hu
      cases h
      exact .inr ⟨i, n, hf, hu, rfl⟩
    · cases h
    · cases h

theorem step_halted {s : State} (h : s.mode = .halted) : step s = .next s := by
  simp [step, State.round, h]

theorem step_waiting {s : State} (h : s.mode = .waitingForEvent) : step s = .next s.waitingRound := by
  simp [step, State.round, h]

theorem step_running {s : State} (h : s.mode = .running) : step s = runningRound s := by
  simp [step, State.round, h]

/-- Everything a step that answers a next state can have done. -/
theorem step_cases {s t : State} (h : step s = .next t) :
    (s.mode = .halted ∧ t = s) ∨
    (s.mode = .waitingForEvent ∧ s.ev.kind ≠ .none ∧ t = s.wakeUp) ∨
    (s.mode = .waitingForEvent ∧ s.ev.kind = .none ∧ t = s.tick) ∨
    (s.mode = .running ∧ ∃ e, s.fetch = .error e ∧ t = s.raiseIllegal e) ∨
    (s.mode = .running ∧ ∃ i n u, s.fetch = .ok (i, n) ∧
      exec i (s.setIp (s.nextIp n)) = .next u ∧ t = u.ticks (s.cost i)) := by
  rcases hm : s.mode with _ | _ | _
  · rw [step_running hm, runningRound] at h
    split at h
    · rename_i u c hu
      cases h
      rcases stepInstr_cases hu with ⟨e, he, rfl, rfl⟩ | ⟨i, n, hf, hx, rfl⟩
      · exact .inr (.inr (.inr (.inl ⟨rfl, e, he, rfl⟩)))
      · exact .inr (.inr (.inr (.inr ⟨rfl, i, n, u, hf, hx, rfl⟩)))
    · cases h
    · cases h
  · rw [step_halted hm] at h
    cases h
    exact .inl ⟨rfl, rfl⟩
  · rw [step_waiting hm, State.waitingRound] at h
    cases h
    by_cases hk : s.ev.kind = .none
    · exact .inr (.inr (.inl ⟨rfl, hk, by simp [hk]⟩))
    · exact .inr (.inl ⟨rfl, hk, by simp [hk]⟩)

end Sys2Proof.Machine
end

