-- ==== Sys2Proof/Laws/Host.lean ====
section
/-!
SUPPORT. Everything a host operation can do to the state (60_exceptions.md R170 to R181), and the ordered list of
pressed keys.
-/

namespace Sys2Proof.Machine

/-! ## Pressed keys (R172) -/

/-- The new code and the old ones are what the list holds. -/
theorem mem_insertKey (code : Word) (ks : List Word) (k : Word) :
    k ∈ insertKey code ks ↔ k = code ∨ k ∈ ks := by
  induction ks with
  | nil => simp [insertKey]
  | cons q ks ih =>
    simp only [insertKey]
    split
    · simp
    · simp only [List.mem_cons, ih]
      exact or_left_comm

/-- The list stays strictly rising. -/
theorem insertKey_sorted (code : Word) {ks : List Word} (hn : code ∉ ks)
    (h : ks.Pairwise (fun k k' => k.toNat < k'.toNat)) :
    (insertKey code ks).Pairwise (fun k k' => k.toNat < k'.toNat) := by
  induction ks with
  | nil => simp [insertKey]
  | cons q ks ih =>
    obtain ⟨hq, hks⟩ := List.pairwise_cons.1 h
    simp only [List.mem_cons, not_or] at hn
    simp only [insertKey]
    split
    · refine List.pairwise_cons.2 ⟨fun k hk => ?_, h⟩
      rcases List.mem_cons.1 hk with rfl | hk
      · assumption
      · exact Nat.lt_trans ‹_› (hq k hk)
    · have hne : code.toNat ≠ q.toNat := fun e => hn.1 (BitVec.eq_of_toNat_eq e)
      refine List.pairwise_cons.2 ⟨fun k hk => ?_, ih hn.2 hks⟩
      rcases (mem_insertKey _ _ _).1 hk with rfl | hk
      · omega
      · exact hq k hk

/-! ## Drive operations that may be refused (R175 to R177, R181) -/

theorem State.insertDisk_eq_some {s t : State} {d : DriveId} {ro : Bool} (h : s.insertDisk d ro = some t) :
    (s.drive d).xfer = .idle ∧
      t = s.setDrive d { s.drive d with present := true, dirty := false, readonly := ro } := by
  unfold State.insertDisk at h
  split at h
  · cases h
  · cases h
    exact ⟨not_not.1 ‹_›, rfl⟩

theorem State.removeDisk_eq_some {s t : State} {d : DriveId} (h : s.removeDisk d = some t) :
    (s.drive d).xfer = .idle ∧ t = s.setDrive d { s.drive d with present := false } := by
  unfold State.removeDisk at h
  split at h
  · cases h
  · cases h
    exact ⟨not_not.1 ‹_›, rfl⟩

theorem State.fillBuffer_eq_some {s t : State} {d : DriveId} {m : Memory} (h : s.fillBuffer d m = some t) :
    (s.drive d).present = false ∧ m.wf Config.imageBytes ∧
      t = s.setDrive d { s.drive d with image := m } := by
  by_cases hp : (s.drive d).present = true
  · rw [State.fillBuffer, if_pos hp] at h
    cases h
  · rw [State.fillBuffer, if_neg hp] at h
    by_cases hm : m.wf Config.imageBytes
    · rw [if_pos hm] at h
      cases h
      exact ⟨by simpa using hp, hm, rfl⟩
    · rw [if_neg hm] at h
      cases h

/-- An answer that may be a refusal: the state is as before, or the operation's. -/
theorem replyTo_cases {s t : State} {r : HostReply} {o : Option State} (h : replyTo s o = (r, t)) :
    t = s ∨ o = some t := by
  cases o with
  | none =>
    cases h
    exact .inl rfl
  | some u =>
    cases h
    exact .inr rfl

/-- An operation on a drive index: refused, or carried out on the drive it names. -/
theorem onDrive_cases {s t : State} {r : HostReply} {n : Nat} {k : DriveId → HostReply × State}
    (h : onDrive s n k = (r, t)) : t = s ∨ ∃ d, driveOfIndex n = some d ∧ k d = (r, t) := by
  unfold onDrive at h
  cases hd : driveOfIndex n with
  | none =>
    simp only [hd] at h
    cases h
    exact .inl rfl
  | some d =>
    simp only [hd] at h
    exact .inr ⟨d, rfl, h⟩

/-! ## Any host operation (R170) -/

/-- Everything a host operation that answers can have done to the state. -/
theorem hostCall_cases {c : HostCall} {s t : State} {r : HostReply} (h : hostCall c s = .next (r, t)) :
    t = s ∨ t = s.initializeMachine ∨ t = s.resetMachine ∨ (∃ n, c = .run n ∧ run n s = .next t) ∨
    (∃ code, code ∉ s.keys ∧
      t = ({ s with keys := insertKey code s.keys } : State).post .keyDown code) ∨
    (∃ code, code ∈ s.keys ∧
      t = ({ s with keys := s.keys.filter (fun k => k ≠ code) } : State).post .keyUp code) ∨
    (∃ d ro, (s.drive d).xfer = .idle ∧
      t = s.setDrive d { s.drive d with present := true, dirty := false, readonly := ro }) ∨
    (∃ d, (s.drive d).xfer = .idle ∧ t = s.setDrive d { s.drive d with present := false }) ∨
    (∃ d m, (s.drive d).present = false ∧ Memory.wf Config.imageBytes m ∧
      t = s.setDrive d { s.drive d with image := m }) := by
  cases c with
  | init =>
    cases h
    exact .inr (.inl rfl)
  | reset =>
    cases h
    exact .inr (.inr (.inl rfl))
  | run n =>
    simp only [hostCall] at h
    split at h
    · rename_i u hu
      cases h
      exact .inr (.inr (.inr (.inl ⟨n, rfl, hu⟩)))
    · cases h
    · cases h
  | keyDown code =>
    cases h
    unfold State.keyDown
    split
    · exact .inl rfl
    · exact .inr (.inr (.inr (.inr (.inl ⟨code, ‹_›, rfl⟩))))
  | keyUp code =>
    cases h
    unfold State.keyUp
    split
    · exact .inr (.inr (.inr (.inr (.inr (.inl ⟨code, ‹_›, rfl⟩)))))
    · exact .inl rfl
  | insertDisk n ro =>
    rcases onDrive_cases (Host.Outcome.next.inj h) with h | ⟨d, -, h⟩
    · exact .inl h
    · rcases replyTo_cases h with h | h
      · exact .inl h
      · exact .inr (.inr (.inr (.inr (.inr (.inr (.inl ⟨d, _, State.insertDisk_eq_some h⟩))))))
  | removeDisk n =>
    rcases onDrive_cases (Host.Outcome.next.inj h) with h | ⟨d, -, h⟩
    · exact .inl h
    · rcases replyTo_cases h with h | h
      · exact .inl h
      · exact .inr (.inr (.inr (.inr (.inr (.inr (.inr (.inl ⟨d, State.removeDisk_eq_some h⟩)))))))
  | fillBuffer n m =>
    rcases onDrive_cases (Host.Outcome.next.inj h) with h | ⟨d, -, h⟩
    · exact .inl h
    · rcases replyTo_cases h with h | h
      · exact .inl h
      · exact .inr (.inr (.inr (.inr (.inr (.inr (.inr (.inr ⟨d, m, State.fillBuffer_eq_some h⟩)))))))
  | readBuffer n =>
    rcases onDrive_cases (Host.Outcome.next.inj h) with h | ⟨d, -, h⟩
    · exact .inl h
    · cases h
      exact .inl rfl
  | diskStats n =>
    rcases onDrive_cases (Host.Outcome.next.inj h) with h | ⟨d, -, h⟩
    · exact .inl h
    · cases h
      exact .inl rfl
  | screenBuffer =>
    cases h
    exact .inl rfl
  | screenWidth =>
    cases h
    exact .inl rfl
  | screenHeight =>
    cases h
    exact .inl rfl

end Sys2Proof.Machine
end

