-- ==== Sys2Proof/Laws/Instructions.lean ====
section
/-!
SUPPORT. What the shared operations of the instruction meanings do: jumps, loads, stores, and the run loop where it
stops.
-/

namespace Sys2Proof.Machine

/-- A conditional jump goes to its target or falls through, and changes nothing but `ip` (R105). -/
theorem State.jumpIf_eq (s : State) (p : Word → Bool) (a b : Src) :
    s.jumpIf p a b = s.setIp (if p (s.val a) then s.val b else s.ip) := by
  unfold State.jumpIf
  split <;> rfl

/-- A byte load writes the zero-extended byte to its destination (R121). -/
theorem State.reg_loadByte (s : State) (a : Reg) (b : Src) (off : Word) (r : Reg) :
    (s.loadByte a b off).reg r =
      if r = a then zext16 (s.readByte (s.effAddr b off)) else s.reg r := by
  rw [State.loadByte, State.reg_setReg]

/-- A word load writes the word to its destination (R122). -/
theorem State.reg_loadWord (s : State) (a : Reg) (b : Src) (off : Word) (r : Reg) :
    (s.loadWord a b off).reg r =
      if r = a then s.readWord (s.effAddr b off) else s.reg r := by
  rw [State.loadWord, State.reg_setReg]

/-- A byte store changes the byte at its effective address (R123). -/
theorem State.readByte_storeByte (s : State) (a b : Src) (off : Word) (x : Word) :
    (s.storeByte a b off).readByte x =
      if x = s.effAddr a off then loByte (s.val b) else s.readByte x := by
  rw [State.storeByte, State.readByte_writeByte]

/-- A word store changes the two bytes from its effective address on (R124). -/
theorem State.readByte_storeWord (s : State) (a b : Src) (off : Word) (x : Word) :
    (s.storeWord a b off).readByte x =
      if x = s.effAddr a off + 1 then hiByte (s.val b)
      else if x = s.effAddr a off then loByte (s.val b) else s.readByte x := by
  rw [State.storeWord, State.readByte_writeWord]

/-- Where the loop of R153 returns: in Halted, and without budget unless a wake-up is due. -/
theorem runLoop_stop {fuel rem : Nat} {s : State}
    (h : s.mode = .halted ∨ (rem = 0 ∧ (s.mode = .waitingForEvent → s.ev.kind = .none))) :
    runLoop fuel rem s = .next s := by
  cases fuel with
  | zero => rfl
  | succ fuel =>
    unfold runLoop
    rcases hm : s.mode with _ | _ | _
    · rcases h with h | ⟨h, -⟩
      · rw [hm] at h
        cases h
      · simp [h]
    · rfl
    · rcases h with h | ⟨h, hk⟩
      · rw [hm] at h
        cases h
      · simp [h, hk hm]

end Sys2Proof.Machine
end

