-- ==== Sys2Proof/Laws/PerInstr.lean ====
section
/-!
SUPPORT. Statements made per instruction, one lemma per constructor of `Instr`.
-/

/-- The encoder writes as many bytes as the length column of 30_encoding.md R52 says, between 1 and 8 (R50). -/
def Sys2Proof.Laws.EncodedLength.Statement (i : Sys2Proof.Instr) : Prop :=
  (Sys2Proof.encode i).length = i.length ∧ 1 ≤ i.length ∧ i.length ≤ 8

namespace Sys2Proof.Laws

theorem EncodedLength.nop :
    EncodedLength.Statement (.nop) := by
  simp [EncodedLength.Statement, encode, Instr.length]

theorem EncodedLength.ret :
    EncodedLength.Statement (.ret) := by
  simp [EncodedLength.Statement, encode, Instr.length]

theorem EncodedLength.halt :
    EncodedLength.Statement (.halt) := by
  simp [EncodedLength.Statement, encode, Instr.length]

theorem EncodedLength.wait :
    EncodedLength.Statement (.wait) := by
  simp [EncodedLength.Statement, encode, Instr.length]

theorem EncodedLength.poll :
    EncodedLength.Statement (.poll) := by
  simp [EncodedLength.Statement, encode, Instr.length]

theorem EncodedLength.add (a : Reg) (b : Src) :
    EncodedLength.Statement (.add a b) := by
  have := b.immLen_le
  simp [EncodedLength.Statement, encode, Instr.length]
  omega

theorem EncodedLength.sub (a : Reg) (b : Src) :
    EncodedLength.Statement (.sub a b) := by
  have := b.immLen_le
  simp [EncodedLength.Statement, encode, Instr.length]
  omega

theorem EncodedLength.xor (a : Reg) (b : Src) :
    EncodedLength.Statement (.xor a b) := by
  have := b.immLen_le
  simp [EncodedLength.Statement, encode, Instr.length]
  omega

theorem EncodedLength.and (a : Reg) (b : Src) :
    EncodedLength.Statement (.and a b) := by
  have := b.immLen_le
  simp [EncodedLength.Statement, encode, Instr.length]
  omega

theorem EncodedLength.or (a : Reg) (b : Src) :
    EncodedLength.Statement (.or a b) := by
  have := b.immLen_le
  simp [EncodedLength.Statement, encode, Instr.length]
  omega

theorem EncodedLength.shl (a : Reg) (b : Src) :
    EncodedLength.Statement (.shl a b) := by
  have := b.immLen_le
  simp [EncodedLength.Statement, encode, Instr.length]
  omega

theorem EncodedLength.shr (a : Reg) (b : Src) :
    EncodedLength.Statement (.shr a b) := by
  have := b.immLen_le
  simp [EncodedLength.Statement, encode, Instr.length]
  omega

theorem EncodedLength.cmp (a : Reg) (b : Src) :
    EncodedLength.Statement (.cmp a b) := by
  have := b.immLen_le
  simp [EncodedLength.Statement, encode, Instr.length]
  omega

theorem EncodedLength.not (a : Reg) :
    EncodedLength.Statement (.not a) := by
  simp [EncodedLength.Statement, encode, Instr.length]

theorem EncodedLength.neg (a : Reg) :
    EncodedLength.Statement (.neg a) := by
  simp [EncodedLength.Statement, encode, Instr.length]

theorem EncodedLength.pop (a : Reg) :
    EncodedLength.Statement (.pop a) := by
  simp [EncodedLength.Statement, encode, Instr.length]

theorem EncodedLength.push (b : Src) :
    EncodedLength.Statement (.push b) := by
  have := b.immLen_le
  simp [EncodedLength.Statement, encode, Instr.length]
  omega

theorem EncodedLength.jmp (b : Src) :
    EncodedLength.Statement (.jmp b) := by
  have := b.immLen_le
  simp [EncodedLength.Statement, encode, Instr.length]
  omega

theorem EncodedLength.call (b : Src) :
    EncodedLength.Statement (.call b) := by
  have := b.immLen_le
  simp [EncodedLength.Statement, encode, Instr.length]
  omega

theorem EncodedLength.load (a : Reg) (b : Src) :
    EncodedLength.Statement (.load a b) := by
  have := b.immLen_le
  simp [EncodedLength.Statement, encode, Instr.length]
  omega

theorem EncodedLength.loadOff8 (a : Reg) (b : Src) (f : Byte) :
    EncodedLength.Statement (.loadOff8 a b f) := by
  have := b.immLen_le
  simp [EncodedLength.Statement, encode, Instr.length]
  omega

theorem EncodedLength.loadOff16 (a : Reg) (b : Src) (f : Word) :
    EncodedLength.Statement (.loadOff16 a b f) := by
  have := b.immLen_le
  simp [EncodedLength.Statement, encode, Instr.length]
  omega

theorem EncodedLength.loadw (a : Reg) (b : Src) :
    EncodedLength.Statement (.loadw a b) := by
  have := b.immLen_le
  simp [EncodedLength.Statement, encode, Instr.length]
  omega

theorem EncodedLength.loadwOff8 (a : Reg) (b : Src) (f : Byte) :
    EncodedLength.Statement (.loadwOff8 a b f) := by
  have := b.immLen_le
  simp [EncodedLength.Statement, encode, Instr.length]
  omega

theorem EncodedLength.loadwOff16 (a : Reg) (b : Src) (f : Word) :
    EncodedLength.Statement (.loadwOff16 a b f) := by
  have := b.immLen_le
  simp [EncodedLength.Statement, encode, Instr.length]
  omega

theorem EncodedLength.store (a : Src) (b : Src) :
    EncodedLength.Statement (.store a b) := by
  have := a.immLen_le
  have := b.immLen_le
  simp [EncodedLength.Statement, encode, Instr.length]
  omega

theorem EncodedLength.storeOff8 (a : Src) (b : Src) (f : Byte) :
    EncodedLength.Statement (.storeOff8 a b f) := by
  have := a.immLen_le
  have := b.immLen_le
  simp [EncodedLength.Statement, encode, Instr.length]
  omega

theorem EncodedLength.storeOff16 (a : Src) (b : Src) (f : Word) :
    EncodedLength.Statement (.storeOff16 a b f) := by
  have := a.immLen_le
  have := b.immLen_le
  simp [EncodedLength.Statement, encode, Instr.length]
  omega

theorem EncodedLength.storew (a : Src) (b : Src) :
    EncodedLength.Statement (.storew a b) := by
  have := a.immLen_le
  have := b.immLen_le
  simp [EncodedLength.Statement, encode, Instr.length]
  omega

theorem EncodedLength.storewOff8 (a : Src) (b : Src) (f : Byte) :
    EncodedLength.Statement (.storewOff8 a b f) := by
  have := a.immLen_le
  have := b.immLen_le
  simp [EncodedLength.Statement, encode, Instr.length]
  omega

theorem EncodedLength.storewOff16 (a : Src) (b : Src) (f : Word) :
    EncodedLength.Statement (.storewOff16 a b f) := by
  have := a.immLen_le
  have := b.immLen_le
  simp [EncodedLength.Statement, encode, Instr.length]
  omega

theorem EncodedLength.jez (a : Src) (b : Src) :
    EncodedLength.Statement (.jez a b) := by
  have := a.immLen_le
  have := b.immLen_le
  simp [EncodedLength.Statement, encode, Instr.length]
  omega

theorem EncodedLength.jnz (a : Src) (b : Src) :
    EncodedLength.Statement (.jnz a b) := by
  have := a.immLen_le
  have := b.immLen_le
  simp [EncodedLength.Statement, encode, Instr.length]
  omega

theorem EncodedLength.jl (a : Src) (b : Src) :
    EncodedLength.Statement (.jl a b) := by
  have := a.immLen_le
  have := b.immLen_le
  simp [EncodedLength.Statement, encode, Instr.length]
  omega

theorem EncodedLength.jg (a : Src) (b : Src) :
    EncodedLength.Statement (.jg a b) := by
  have := a.immLen_le
  have := b.immLen_le
  simp [EncodedLength.Statement, encode, Instr.length]
  omega

theorem EncodedLength.jle (a : Src) (b : Src) :
    EncodedLength.Statement (.jle a b) := by
  have := a.immLen_le
  have := b.immLen_le
  simp [EncodedLength.Statement, encode, Instr.length]
  omega

theorem EncodedLength.jge (a : Src) (b : Src) :
    EncodedLength.Statement (.jge a b) := by
  have := a.immLen_le
  have := b.immLen_le
  simp [EncodedLength.Statement, encode, Instr.length]
  omega

theorem EncodedLength.read0 (a : Src) (b : Src) :
    EncodedLength.Statement (.read0 a b) := by
  have := a.immLen_le
  have := b.immLen_le
  simp [EncodedLength.Statement, encode, Instr.length]
  omega

theorem EncodedLength.read1 (a : Src) (b : Src) :
    EncodedLength.Statement (.read1 a b) := by
  have := a.immLen_le
  have := b.immLen_le
  simp [EncodedLength.Statement, encode, Instr.length]
  omega

theorem EncodedLength.write0 (a : Src) (b : Src) :
    EncodedLength.Statement (.write0 a b) := by
  have := a.immLen_le
  have := b.immLen_le
  simp [EncodedLength.Statement, encode, Instr.length]
  omega

theorem EncodedLength.write1 (a : Src) (b : Src) :
    EncodedLength.Statement (.write1 a b) := by
  have := a.immLen_le
  have := b.immLen_le
  simp [EncodedLength.Statement, encode, Instr.length]
  omega

end Sys2Proof.Laws
end

