-- ==== Sys2Proof/Tests/Slice0.lean ====
section
/-!
SUPPORT. Tests. Expected results come from the spec: the words and the vectors of 95_test_vectors.md (the section is
named at each group) or the rule named. The last part shows, for each obligation with hypotheses, a concrete case
that meets them.
-/

namespace Sys2Proof.Tests

open Sys2Proof.Machine Sys2Proof.Claims

set_option maxRecDepth 20000

/-! ## Helpers -/

/-- Test parameters: transfer time 10, refresh period 1000, cycle rate 5, a framebuffer of 4 by 2 at 0x8000. -/
def params : Config.Params := ⟨10, 1000, 5, ⟨0x8000, 4, 2⟩, [], []⟩

/-- The reset state with the test parameters. -/
def blank : State := { State.reset with params := params }

/-- The next state of an outcome, if it is one. -/
def nextOf {α : Type} : Host.Outcome α Fault Refusal → Option α
  | .next t => some t
  | .fault _ => none
  | .refused _ => none

/-- Bytes placed at an address and after it. -/
def place (s : State) (a : Nat) (bs : List Byte) : State :=
  match bs with
  | [] => s
  | b :: bs => place (s.writeByte (BitVec.ofNat 16 a) b) (a + 1) bs

/-- `blank` with bytes at 0x0000, and registers and memory bytes as given. -/
def start (bs : List Byte) (rs : List (Reg × Word) := []) (m : List (Nat × List Byte) := []) : State :=
  m.foldl (fun s p => place s p.1 p.2) (rs.foldl (fun s p => s.setReg p.1 p.2) (place blank 0 bs))

/-- What one step leaves, seen through `f`. -/
def after {α : Type} (s : State) (f : State → α) : Option α := (nextOf (step s)).map f

/-- A drive bound to a blank image. -/
def bound : Drive := { Drive.reset with present := true }

/-- A bound drive in the middle of a transfer. -/
def busyDrive (dir : Dir) (t0 : Nat) : Drive := { bound with xfer := .busy dir t0 0x2000 0x0000, idle := 0 }

/-! ## WellFormed: a literal operand must be one of 0 to 4 and 0xFFFF (30_encoding.md R53) -/

theorem test_wf_code_literals : [0, 1, 2, 3, 4, 0xFFFF].all (fun v => (Src.lit v).wf) = true := by decide
theorem test_wf_refuses_literal_5 : (Src.lit 5).wf = false := by decide
theorem test_wf_refuses_literal_fffe : (Src.lit 0xFFFE).wf = false := by decide
theorem test_wf_refuses_alu_operand : (([
    .add .A (.lit 5),
    .sub .A (.lit 5),
    .xor .A (.lit 5),
    .and .A (.lit 5),
    .or .A (.lit 5),
    .shl .A (.lit 5),
    .shr .A (.lit 5),
    .cmp .A (.lit 5)] : List Instr).all fun i => !i.wf) = true := by decide
theorem test_wf_refuses_stack_operand : (([
    .push (.lit 5),
    .jmp (.lit 5),
    .call (.lit 5)] : List Instr).all fun i => !i.wf) = true := by decide
theorem test_wf_refuses_load_operand : (([
    .load .A (.lit 5),
    .loadOff8 .A (.lit 5) 0,
    .loadOff16 .A (.lit 5) 0,
    .loadw .A (.lit 5),
    .loadwOff8 .A (.lit 5) 0,
    .loadwOff16 .A (.lit 5) 0] : List Instr).all fun i => !i.wf) = true := by decide
theorem test_wf_refuses_store_operand : (([
    .store (.lit 5) (.reg .A),
    .store (.reg .A) (.lit 5),
    .storeOff8 (.lit 5) (.reg .A) 0,
    .storeOff8 (.reg .A) (.lit 5) 0,
    .storeOff16 (.lit 5) (.reg .A) 0,
    .storeOff16 (.reg .A) (.lit 5) 0,
    .storew (.lit 5) (.reg .A),
    .storew (.reg .A) (.lit 5),
    .storewOff8 (.lit 5) (.reg .A) 0,
    .storewOff8 (.reg .A) (.lit 5) 0,
    .storewOff16 (.lit 5) (.reg .A) 0,
    .storewOff16 (.reg .A) (.lit 5) 0] : List Instr).all fun i => !i.wf) = true := by decide
theorem test_wf_refuses_jump_operand : (([
    .jez (.lit 5) (.reg .A),
    .jez (.reg .A) (.lit 5),
    .jnz (.lit 5) (.reg .A),
    .jnz (.reg .A) (.lit 5),
    .jl (.lit 5) (.reg .A),
    .jl (.reg .A) (.lit 5),
    .jg (.lit 5) (.reg .A),
    .jg (.reg .A) (.lit 5),
    .jle (.lit 5) (.reg .A),
    .jle (.reg .A) (.lit 5),
    .jge (.lit 5) (.reg .A),
    .jge (.reg .A) (.lit 5)] : List Instr).all fun i => !i.wf) = true := by decide
theorem test_wf_refuses_disk_operand : (([
    .read0 (.lit 5) (.reg .A),
    .read0 (.reg .A) (.lit 5),
    .read1 (.lit 5) (.reg .A),
    .read1 (.reg .A) (.lit 5),
    .write0 (.lit 5) (.reg .A),
    .write0 (.reg .A) (.lit 5),
    .write1 (.lit 5) (.reg .A),
    .write1 (.reg .A) (.lit 5)] : List Instr).all fun i => !i.wf) = true := by decide

/-! ## Decode and encode: one word per constructor (95_test_vectors.md 2.1; the others by R51 to R56) -/

theorem test_decode_nop : decodeBytes [0x00] = .ok (.nop, 1) := by decide
theorem test_decode_ret : decodeBytes [0x01] = .ok (.ret, 1) := by decide
theorem test_decode_halt : decodeBytes [0x02] = .ok (.halt, 1) := by decide
theorem test_decode_wait : decodeBytes [0x03] = .ok (.wait, 1) := by decide
theorem test_decode_poll : decodeBytes [0x04] = .ok (.poll, 1) := by decide
theorem test_decode_add : decodeBytes [0x10, 0x0E, 0x34, 0x12] = .ok (.add .A (.imm16 0x1234), 4) := by decide
theorem test_decode_sub : decodeBytes [0x11, 0x7A] = .ok (.sub .S (.lit 2), 2) := by decide
theorem test_decode_xor : decodeBytes [0x12, 0x01] = .ok (.xor .A (.reg .B), 2) := by decide
theorem test_decode_and : decodeBytes [0x13, 0x4D, 0x0F] = .ok (.and .I (.imm8 0x0F), 3) := by decide
theorem test_decode_or : decodeBytes [0x14, 0x5F] = .ok (.or .J (.lit 0xFFFF), 2) := by decide
theorem test_decode_shl : decodeBytes [0x15, 0x09] = .ok (.shl .A (.lit 1), 2) := by decide
theorem test_decode_shr : decodeBytes [0x16, 0x2C] = .ok (.shr .C (.lit 4), 2) := by decide
theorem test_decode_cmp : decodeBytes [0x17, 0x2E, 0x00, 0x80] = .ok (.cmp .C (.imm16 0x8000), 4) := by decide
theorem test_decode_not : decodeBytes [0x20, 0x30] = .ok (.not .D, 2) := by decide
theorem test_decode_neg : decodeBytes [0x21, 0x00] = .ok (.neg .A, 2) := by decide
theorem test_decode_pop : decodeBytes [0x22, 0x70] = .ok (.pop .S, 2) := by decide
theorem test_decode_push : decodeBytes [0x23, 0x0E, 0x34, 0x12] = .ok (.push (.imm16 0x1234), 4) := by decide
theorem test_decode_jmp : decodeBytes [0x24, 0x0E, 0x00, 0x01] = .ok (.jmp (.imm16 0x0100), 4) := by decide
theorem test_decode_call : decodeBytes [0x25, 0x0D, 0x20] = .ok (.call (.imm8 0x20), 3) := by decide
theorem test_decode_load : decodeBytes [0x30, 0x06] = .ok (.load .A (.reg .P), 2) := by decide
theorem test_decode_loadOff8 : decodeBytes [0x31, 0x06, 0x10] = .ok (.loadOff8 .A (.reg .P) 0x10, 3) := by decide
theorem test_decode_loadOff16 : decodeBytes [0x32, 0x06, 0x10, 0x00] = .ok (.loadOff16 .A (.reg .P) 0x0010, 4) := by decide
theorem test_decode_loadw : decodeBytes [0x34, 0x26] = .ok (.loadw .C (.reg .P), 2) := by decide
theorem test_decode_loadwOff8 : decodeBytes [0x35, 0x66, 0x02] = .ok (.loadwOff8 .P (.reg .P) 0x02, 3) := by decide
theorem test_decode_loadwOff16 : decodeBytes [0x36, 0x06, 0x34, 0x12] = .ok (.loadwOff16 .A (.reg .P) 0x1234, 4) := by decide
theorem test_decode_store : decodeBytes [0x38, 0xFF] = .ok (.store (.lit 0xFFFF) (.lit 0xFFFF), 2) := by decide
theorem test_decode_storeOff8 : decodeBytes [0x39, 0x60, 0x01] = .ok (.storeOff8 (.reg .P) (.reg .A) 0x01, 3) := by decide
theorem test_decode_storeOff16 : decodeBytes [0x3A, 0xDE, 0x07, 0x34, 0x12, 0x78, 0x56] = .ok (.storeOff16 (.imm8 0x07) (.imm16 0x1234) 0x5678, 7) := by decide
theorem test_decode_storew : decodeBytes [0x3C, 0xE0, 0x00, 0x01] = .ok (.storew (.imm16 0x0100) (.reg .A), 4) := by decide
theorem test_decode_storewOff8 : decodeBytes [0x3D, 0xD1, 0x20, 0x03] = .ok (.storewOff8 (.imm8 0x20) (.reg .B) 0x03, 4) := by decide
theorem test_decode_storewOff16 : decodeBytes [0x3E, 0xEE, 0x00, 0x40, 0xEF, 0xBE, 0x02, 0x01] = .ok (.storewOff16 (.imm16 0x4000) (.imm16 0xBEEF) 0x0102, 8) := by decide
theorem test_decode_jez : decodeBytes [0x40, 0x8E, 0x00, 0x01] = .ok (.jez (.lit 0) (.imm16 0x0100), 4) := by decide
theorem test_decode_jnz : decodeBytes [0x41, 0x4D, 0x07] = .ok (.jnz (.reg .I) (.imm8 0x07), 3) := by decide
theorem test_decode_jl : decodeBytes [0x42, 0xEE, 0x34, 0x12, 0x78, 0x56] = .ok (.jl (.imm16 0x1234) (.imm16 0x5678), 6) := by decide
theorem test_decode_jg : decodeBytes [0x43, 0x0E, 0x00, 0x01] = .ok (.jg (.reg .A) (.imm16 0x0100), 4) := by decide
theorem test_decode_jle : decodeBytes [0x44, 0x1D, 0x10] = .ok (.jle (.reg .B) (.imm8 0x10), 3) := by decide
theorem test_decode_jge : decodeBytes [0x45, 0x0D, 0x17] = .ok (.jge (.reg .A) (.imm8 0x17), 3) := by decide
theorem test_decode_read0 : decodeBytes [0x50, 0x6D, 0x10] = .ok (.read0 (.reg .P) (.imm8 0x10), 3) := by decide
theorem test_decode_read1 : decodeBytes [0x51, 0x6E, 0x00, 0x01] = .ok (.read1 (.reg .P) (.imm16 0x0100), 4) := by decide
theorem test_decode_write0 : decodeBytes [0x52, 0xED, 0x00, 0x20, 0x05] = .ok (.write0 (.imm16 0x2000) (.imm8 0x05), 5) := by decide
theorem test_decode_write1 : decodeBytes [0x53, 0xE1, 0x00, 0x20] = .ok (.write1 (.imm16 0x2000) (.reg .B), 4) := by decide

/-- The encoder writes the words of the spec, for one instruction of each format (R52). -/
theorem test_encode_words :
    encode (.nop) = [0x00] ∧
    encode (.sub .S (.lit 2)) = [0x11, 0x7A] ∧
    encode (.not .D) = [0x20, 0x30] ∧
    encode (.call (.imm8 0x20)) = [0x25, 0x0D, 0x20] ∧
    encode (.loadwOff16 .A (.reg .P) 0x1234) = [0x36, 0x06, 0x34, 0x12] ∧
    encode (.storewOff16 (.imm16 0x4000) (.imm16 0xBEEF) 0x0102) = [0x3E, 0xEE, 0x00, 0x40, 0xEF, 0xBE, 0x02, 0x01] ∧
    encode (.jl (.imm16 0x1234) (.imm16 0x5678)) = [0x42, 0xEE, 0x34, 0x12, 0x78, 0x56] ∧
    encode (.write0 (.imm16 0x2000) (.imm8 0x05)) = [0x52, 0xED, 0x00, 0x20, 0x05] := by decide

/-- An unused operand field is ignored and consumes nothing (R60). -/
theorem test_decode_unused_fields :
    decodeBytes [0x20, 0x3E] = .ok (.not .D, 2) ∧ decodeBytes [0x23, 0xF9] = .ok (.push (.lit 1), 2) ∧
    decodeBytes [0x24, 0xEE, 0x34, 0x12] = .ok (.jmp (.imm16 0x1234), 4) ∧
    decodeBytes [0x22, 0x1D, 0xAA] = .ok (.pop .B, 2) := by decide

/-- The unlisted opcode bytes of 95_test_vectors.md 2.1, and both ends of every gap (R59). -/
theorem test_decode_illegal_opcodes :
    ([0x05, 0x0F, 0x18, 0x1F, 0x26, 0x2F, 0x33, 0x37, 0x3B, 0x3F, 0x46, 0x4F, 0x54, 0x5F, 0x60, 0xFF].all fun op =>
      decide (decodeBytes [op, 0x00] = .error .illegalOpcode)) = true := by decide

/-- There are 215 unlisted opcode bytes (R59). -/
theorem test_decode_count_illegal_opcodes :
    ((List.range 256).filter fun n => (layoutOf (BitVec.ofNat 8 n)).isNone).length = 215 := by decide

/-- Destination codes above 7, for each of the 13 mnemonics (R58). -/
theorem test_decode_illegal_destinations :
    ([0x10, 0x11, 0x12, 0x13, 0x14, 0x15, 0x16, 0x17, 0x20, 0x21, 0x22, 0x30, 0x31, 0x32, 0x34, 0x35, 0x36].all
      fun op => decide (decodeBytes [op, 0x80] = .error .illegalDestination) &&
        decide (decodeBytes [op, 0xD0, 0x05] = .error .illegalDestination)) = true := by decide

/-- The assembler's choice of operand at the ends of its ranges (R65). -/
theorem test_ofValue_boundaries :
    Src.ofValue 0 = .lit 0 ∧ Src.ofValue 4 = .lit 4 ∧ Src.ofValue 5 = .imm8 5 ∧ Src.ofValue 255 = .imm8 255 ∧
    Src.ofValue 256 = .imm16 256 ∧ Src.ofValue 0xFFFE = .imm16 0xFFFE ∧ Src.ofValue 0xFFFF = .lit 0xFFFF := by
  decide

/-- Table words: the first byte is the least significant; bits above `nbits` are 0. -/
theorem test_decodeTableWord :
    decodeTableWord 8 0x02 = some .halt ∧ decodeTableWord 16 0x7A11 = some (.sub .S (.lit 2)) ∧
    decodeTableWord 16 0x0E10 = some (.add .A (.imm16 0)) ∧ decodeTableWord 8 0x05 = none ∧
    decodeTableWord 8 0x7A11 = some (.sub .A (.reg .A)) := by decide

/-- `withFetchWord` makes the very next step run the instruction: here 95_test_vectors.md 2.1, `add A, 0x1234`, from the
reset state itself. -/
theorem test_withFetchWord_from_reset :
    after (State.reset.withFetchWord 32 0x12340E10) (fun t => (t.reg .A, t.ip, t.clock)) =
      some (0x1234, 4, 1) := by decide

/-! ## One step per instruction (95_test_vectors.md 2.2 to 2.6) -/

theorem test_nop :
    after (start [0x00]) (fun t => (t.ip, t.clock, t.regs)) = some (1, 1, ⟨0, 0, 0, 0, 0, 0, 0, 0⟩) := by decide
theorem test_halt :
    after (start [0x02]) (fun t => (t.mode, t.haltCause, t.ip, t.clock)) = some (.halted, .haltInstruction, 1, 1) := by decide
theorem test_wait_takes_the_event :
    after { start [0x03, 0x02] with ev := ⟨.keyDown, 0x41⟩ } (fun t => (t.reg .A, t.reg .B, t.ev, t.mode, t.ip)) =
      some (2, 0x41, ⟨.none, 0⟩, .running, 1) := by decide
theorem test_wait_blocks :
    after (start [0x03, 0x02]) (fun t => (t.mode, t.ip, t.clock)) = some (.waitingForEvent, 1, 1) := by decide
theorem test_poll_empty :
    after (start [0x04] [(.A, 0x1234), (.B, 0x5678)]) (fun t => (t.reg .A, t.reg .B, t.mode)) =
      some (0, 0, .running) := by decide
theorem test_poll_pending :
    after { start [0x04] with ev := ⟨.disk1Finished, 0⟩ } (fun t => (t.reg .A, t.reg .B, t.ev)) =
      some (5, 0, ⟨.none, 0⟩) := by decide
/-- Wake-up: 95_test_vectors.md 2.2, the row with `key_up`. -/
theorem test_wakeUp :
    after { start [0x03] with mode := .waitingForEvent, ev := ⟨.keyUp, 0x20⟩ }
      (fun t => (t.reg .A, t.reg .B, t.mode, t.ev, t.clock, t.ip)) =
      some (1, 0x20, .running, ⟨.none, 0⟩, 0, 0) := by decide
theorem test_add_wraps :
    after (start [0x10, 0x01] [(.A, 0xFFFF), (.B, 0x0001)]) (fun t => (t.reg .A, t.reg .B, t.ip)) = some (0x0000, 0x0001, 2) := by decide
theorem test_add_carries :
    after (start [0x10, 0x01] [(.A, 0x7FFF), (.B, 0x0001)]) (fun t => (t.reg .A, t.reg .B, t.ip)) = some (0x8000, 0x0001, 2) := by decide
theorem test_sub_borrows :
    after (start [0x11, 0x01] [(.A, 0x0000), (.B, 0x0001)]) (fun t => (t.reg .A, t.reg .B, t.ip)) = some (0xFFFF, 0x0001, 2) := by decide
theorem test_sub_min :
    after (start [0x11, 0x01] [(.A, 0x8000), (.B, 0x0001)]) (fun t => (t.reg .A, t.reg .B, t.ip)) = some (0x7FFF, 0x0001, 2) := by decide
theorem test_xor :
    after (start [0x12, 0x01] [(.A, 0xAAAA), (.B, 0xFFFF)]) (fun t => (t.reg .A, t.reg .B, t.ip)) = some (0x5555, 0xFFFF, 2) := by decide
theorem test_and :
    after (start [0x13, 0x01] [(.A, 0xF0F0), (.B, 0x0FF0)]) (fun t => (t.reg .A, t.reg .B, t.ip)) = some (0x00F0, 0x0FF0, 2) := by decide
theorem test_or :
    after (start [0x14, 0x01] [(.A, 0xF000), (.B, 0x000F)]) (fun t => (t.reg .A, t.reg .B, t.ip)) = some (0xF00F, 0x000F, 2) := by decide
theorem test_shl_15 :
    after (start [0x15, 0x01] [(.A, 0x0001), (.B, 0x000F)]) (fun t => (t.reg .A, t.reg .B, t.ip)) = some (0x8000, 0x000F, 2) := by decide
theorem test_shl_16 :
    after (start [0x15, 0x01] [(.A, 0x0001), (.B, 0x0010)]) (fun t => (t.reg .A, t.reg .B, t.ip)) = some (0x0000, 0x0010, 2) := by decide
theorem test_shr_15 :
    after (start [0x16, 0x01] [(.A, 0x8000), (.B, 0x000F)]) (fun t => (t.reg .A, t.reg .B, t.ip)) = some (0x0001, 0x000F, 2) := by decide
theorem test_shr_16 :
    after (start [0x16, 0x01] [(.A, 0x8000), (.B, 0x0010)]) (fun t => (t.reg .A, t.reg .B, t.ip)) = some (0x0000, 0x0010, 2) := by decide
theorem test_cmp_greater :
    after (start [0x17, 0x01] [(.A, 0x7FFF), (.B, 0x8000)]) (fun t => (t.reg .A, t.reg .B, t.ip)) = some (0x0001, 0x8000, 2) := by decide
theorem test_cmp_less :
    after (start [0x17, 0x01] [(.A, 0xFFFE), (.B, 0xFFFF)]) (fun t => (t.reg .A, t.reg .B, t.ip)) = some (0xFFFF, 0xFFFF, 2) := by decide
theorem test_not :
    after (start [0x20, 0x00] [(.A, 0x1234)]) (fun t => (t.reg .A, t.ip)) = some (0xEDCB, 2) := by decide
theorem test_neg :
    after (start [0x21, 0x00] [(.A, 0x1234)]) (fun t => (t.reg .A, t.ip)) = some (0xEDCC, 2) := by decide
theorem test_neg_min :
    after (start [0x21, 0x00] [(.A, 0x8000)]) (fun t => (t.reg .A, t.ip)) = some (0x8000, 2) := by decide
theorem test_push_S :
    after (start [0x23, 0x07] [(.S, 0x8000)]) (fun t => (t.readWord 0x8000, t.reg .S, t.ip)) = some (0x8000, 0x7FFE, 2) := by decide
theorem test_push_wraps :
    after (start [0x23, 0x0E, 0xEF, 0xBE] [(.S, 0xFFFF)]) (fun t => (t.readByte 0xFFFF, t.readByte 0, t.reg .S, t.ip)) = some (0xEF, 0xBE, 0xFFFD, 4) := by decide
theorem test_pop_D :
    after (start [0x22, 0x30] [(.S, 0xFFFC)] [(0xFFFE, [0x34, 0x12])]) (fun t => (t.reg .D, t.reg .S)) = some (0x1234, 0xFFFE) := by decide
theorem test_pop_S :
    after (start [0x22, 0x70] [(.S, 0x0100)] [(0x0102, [0x78, 0x56])]) (fun t => (t.reg .S, t.ip)) = some (0x5678, 2) := by decide
theorem test_jmp :
    after (start [0x24, 0x0E, 0x00, 0x01]) (fun t => (t.ip, t.clock)) = some (0x0100, 1) := by decide
theorem test_call :
    after { place (blank.setReg .S 0xFFFE) 6 [0x25, 0x0D, 0x20] with ip := 6 }
      (fun t => (t.readWord 0xFFFE, t.reg .S, t.ip)) = some (0x0009, 0xFFFC, 0x0020) := by decide
theorem test_call_S :
    after { place (blank.setReg .S 0x4000) 0x10 [0x25, 0x07] with ip := 0x10 }
      (fun t => (t.readWord 0x4000, t.reg .S, t.ip)) = some (0x0012, 0x3FFE, 0x4000) := by decide
theorem test_ret :
    after (start [0x01] [(.S, 0xFFFC)] [(0xFFFE, [0x09, 0x00])]) (fun t => (t.reg .S, t.ip)) = some (0xFFFE, 0x0009) := by decide
theorem test_ret_wraps :
    after (start [0x01] [(.S, 0xFFFD)] [(0xFFFF, [0x34])]) (fun t => (t.reg .S, t.ip)) = some (0xFFFF, 0x0134) := by decide
/-- A jump of the table in 2.4: the addresses after `jxx A, 0x0100` for A in 0, 1, 0xFFFF, 2, 0x8000, 0xFFFE. -/
def jumpRow (op : Byte) : List (Option Word) :=
  [0x0000, 0x0001, 0xFFFF, 0x0002, 0x8000, 0xFFFE].map fun a =>
    after (start [op, 0x0E, 0x00, 0x01] [(.A, a)]) fun t => t.ip
theorem test_jez : jumpRow 0x40 = [some 0x0100, some 4, some 4, some 4, some 4, some 4] := by decide
theorem test_jnz : jumpRow 0x41 = [some 4, some 0x0100, some 0x0100, some 0x0100, some 0x0100, some 0x0100] := by decide
theorem test_jl : jumpRow 0x42 = [some 4, some 4, some 0x0100, some 4, some 4, some 4] := by decide
theorem test_jg : jumpRow 0x43 = [some 4, some 0x0100, some 4, some 4, some 4, some 4] := by decide
theorem test_jle : jumpRow 0x44 = [some 0x0100, some 4, some 0x0100, some 4, some 4, some 4] := by decide
theorem test_jge : jumpRow 0x45 = [some 0x0100, some 0x0100, some 4, some 4, some 4, some 4] := by decide
theorem test_load :
    after (start [0x30, 0x06] [(.P, 0xFFFF), (.A, 0x5555)] [(0xFFFF, [0x80])]) (fun t => (t.reg .A, t.ip)) = some (0x0080, 2) := by decide
theorem test_loadOff8 :
    after (start [0x31, 0x06, 0x10] [(.P, 0x0100)] [(0x0110, [0xAB])]) (fun t => (t.reg .A, t.ip)) = some (0x00AB, 3) := by decide
theorem test_loadOff16 :
    after (start [0x32, 0x06, 0xFE, 0xFF] [(.P, 0x0102)] [(0x0100, [0xCD])]) (fun t => (t.reg .A, t.ip)) = some (0x00CD, 4) := by decide
theorem test_loadw :
    after (start [0x34, 0x06] [(.P, 0xFFFF)] [(0xFFFF, [0xCD])]) (fun t => (t.reg .A, t.ip)) = some (0x34CD, 2) := by decide
theorem test_loadwOff8 :
    after (start [0x35, 0x66, 0x02] [(.P, 0x0100)] [(0x0102, [0xEF, 0xBE])]) (fun t => (t.reg .P, t.ip)) = some (0xBEEF, 3) := by decide
theorem test_loadwOff16 :
    after (start [0x36, 0x06, 0xFE, 0xFF] [(.P, 0x0102)] [(0x0100, [0x11, 0x22])]) (fun t => (t.reg .A, t.ip)) = some (0x2211, 4) := by decide
theorem test_store :
    after (start [0x38, 0xFF]) (fun t => (t.readByte 0xFFFF, t.readByte 0, t.ip)) = some (0xFF, 0x38, 2) := by decide
theorem test_storeOff8 :
    after (start [0x39, 0x60, 0x01] [(.P, 0x0100), (.A, 0x12AB)] [(0x0100, [0x11, 0x22, 0x33])]) (fun t => (t.readByte 0x0100, t.readByte 0x0101, t.readByte 0x0102)) = some (0x11, 0xAB, 0x33) := by decide
theorem test_storeOff16 :
    after (start [0x3A, 0x60, 0xFE, 0xFF] [(.P, 0x0102), (.A, 0x12AB)]) (fun t => (t.readByte 0x0100, t.readByte 0x0101, t.ip)) = some (0xAB, 0x00, 4) := by decide
theorem test_storew :
    after (start [0x3C, 0x60] [(.P, 0xFFFF), (.A, 0x1234)]) (fun t => (t.readByte 0xFFFF, t.readByte 0, t.ip)) = some (0x34, 0x12, 2) := by decide
theorem test_storewOff8 :
    after (start [0x3D, 0x60, 0x02] [(.P, 0x0100), (.A, 0x1234)]) (fun t => (t.readWord 0x0102, t.ip)) = some (0x1234, 3) := by decide
theorem test_storewOff16 :
    after (start [0x3E, 0xEE, 0x00, 0x40, 0xEF, 0xBE, 0x02, 0x01]) (fun t => (t.readByte 0x4102, t.readByte 0x4103, t.ip)) = some (0xEF, 0xBE, 8) := by decide
theorem test_read0_not_present :
    after (start [0x50, 0x88]) (fun t => (t.ev, t.drive0)) = some (⟨.disk0Finished, 1⟩, Drive.reset) := by
  decide
theorem test_read0_accepted :
    after { start [0x50, 0xED, 0x00, 0x20, 0x10] with drive0 := bound, clock := 7 } (fun t => (t.ev, t.drive0)) =
      some (⟨.none, 0⟩, { bound with xfer := .busy .rd 7 0x2000 0x0010, idle := 0 }) := by decide
theorem test_read1_busy :
    after { start [0x51, 0x6E, 0x00, 0x01] with drive1 := busyDrive .rd 0, clock := 3 }
      (fun t => (t.ev, t.drive1.xfer)) = some (⟨.disk1Finished, 2⟩, .busy .rd 0 0x2000 0x0000) := by decide
theorem test_read1_accepted :
    after { start [0x51, 0x6E, 0x00, 0x01] [(.P, 0x2000)] with drive1 := bound, clock := 4 }
      (fun t => (t.drive1.xfer, t.drive0.xfer)) = some (.busy .rd 4 0x2000 0x0100, .idle) := by decide
theorem test_write0_readonly :
    after { start [0x52, 0xEA, 0x00, 0x30] with drive0 := { bound with readonly := true } }
      (fun t => (t.ev, t.drive0.xfer, t.drive0.dirty, t.drive0.idle)) =
      some (⟨.disk0Finished, 3⟩, .idle, false, 2147483647) := by decide
theorem test_write0_accepted :
    after { start [0x52, 0xEA, 0x00, 0x30] with drive0 := bound } (fun t => (t.ev, t.drive0.xfer, t.drive0.dirty)) =
      some (⟨.none, 0⟩, .busy .wr 0 0x3000 0x0002, false) := by decide
theorem test_write1_accepted :
    after { start [0x53, 0xE1, 0x00, 0x20] [(.B, 5)] with drive1 := bound } (fun t => t.drive1.xfer) =
      some (.busy .wr 0 0x2000 0x0005) := by decide
theorem test_write1_busy_before_readonly :
    after { start [0x53, 0xE1, 0x00, 0x20] with drive1 := { busyDrive .rd 0 with readonly := true }, clock := 3 }
      (fun t => t.ev) = some ⟨.disk1Finished, 2⟩ := by decide

/-! ## The exception, the engine, devices and the host (95_test_vectors.md 2.1, 2.6, 2.7) -/

theorem test_illegal_opcode :
    step (start [0x18, 0x00]) =
      .next { start [0x18, 0x00] with mode := .halted, haltCause := .illegalOpcode } := by rfl
theorem test_illegal_destination :
    after (start [0x10, 0x80] [(.A, 1)]) (fun t => (t.mode, t.haltCause, t.ip, t.clock, t.reg .A)) =
      some (.halted, .illegalDestination, 0, 0, 1) := by decide
theorem test_fetch_across_the_wrap :
    after { place blank 0xFFFF [0x24, 0x0E, 0x00, 0x30] with ip := 0xFFFF } (fun t => t.ip) = some 0x3000 := by
  decide
/-- `COST` = 3 for `nop`: `run(4)` charges the second `nop` in full. -/
theorem test_run_overshoots :
    (nextOf (run 4 { blank with params := { params with cost := [(.nop, 3)] } })).map (fun t => (t.ip, t.clock)) =
      some (2, 6) := by decide
/-- V7: refresh and completion in one `Tick`; the disk post comes last. -/
theorem test_same_tick_posts :
    ({ blank with params := { params with refreshPeriod := 10 }, clock := 9, drive0 := busyDrive .rd 0 } : State).tick.ev =
      ⟨.disk0Finished, 0⟩ := by decide
theorem test_refresh :
    ({ blank with clock := 999 } : State).tick.ev = ⟨.screenRefresh, 0⟩ ∧
    ({ blank with clock := 998 } : State).tick.ev = ⟨.none, 0⟩ := by decide
/-- The idle counter saturates at `IDLE_MAX` (R162). -/
theorem test_idle_saturates : blank.tick.drive0.idle = 2147483647 := by decide
/-- The first bytes of a block copy that wraps in source and destination (R39, decision D16). -/
theorem test_copyBlock_wraps :
    copyBlock [(0, 0x10), (15, 0xEF)] 15 16 7 8 2 [] = [(0, 0x10), (7, 0xEF)] := by decide
theorem test_memory_write_removes : Memory.write [(3, 0x05), (9, 0x01)] 3 0x00 = [(9, 0x01)] := by decide
theorem test_key_down_up_without_a_run :
    ((blank.keyDown 0x41).keyUp 0x41).ev = ⟨.keyUp, 0x41⟩ ∧ ((blank.keyDown 0x41).keyUp 0x41).keys = [] := by
  decide
theorem test_remove_keeps_dirty :
    (({ blank with drive0 := { bound with dirty := true } } : State).removeDisk .zero).map (fun t => t.drive0) =
      some { Drive.reset with dirty := true } := by decide
/-- V3: `disk_stats(0)` of a dirty drive with one idle cycle. -/
theorem test_diskStats :
    ({ blank with drive0 := { bound with dirty := true, idle := 1 } } : State).diskStats .zero = 0x80000001 := by
  decide
theorem test_driveActive :
    ({ blank with drive0 := { bound with idle := 2 } } : State).driveActive .zero = true ∧
    ({ blank with drive0 := { bound with idle := 3 } } : State).driveActive .zero = false := by decide
/-- A halted core with a dirty drive in the middle of a transfer. -/
def halted : State :=
  let d := { busyDrive .wr 0 with image := [(0, 0xAA)], dirty := true }
  { blank with mode := .halted, haltCause := .haltInstruction, drive0 := d }
theorem test_reset_keeps_images :
    halted.resetMachine = { blank with drive0 := { Drive.reset with image := [(0, 0xAA)] } } := by decide
theorem test_core_is_the_model : core.step = step := rfl


/-! ## Witnesses: a case that meets the hypotheses of each obligation that has some -/

/-- The longest instruction and its bytes (95_test_vectors.md 2.1). -/
def longInstr : Instr := .storewOff16 (.imm16 0x4000) (.imm16 0xBEEF) 0x0102

def longBytes : List Byte := [0x3E, 0xEE, 0x00, 0x40, 0xEF, 0xBE, 0x02, 0x01]

theorem test_witness_DecodeInvertsEncode :
    longInstr.wf = true ∧
      ∀ k, k < (encode longInstr).length → longBytes.getD k 0 = (encode longInstr).getD k 0 := by decide

theorem test_witness_DecodeGivesWellFormedOfItsLength :
    decode (fun k => longBytes.getD k 0) = .ok (longInstr, 8) ∧ decode (fun _ => 0) = .ok (.nop, 1) := by decide

/-- One instruction with both fields used, one with each field unused. -/
theorem test_witness_DecodedBytesAreTheEncoding :
    (unusedA longInstr = false ∧ unusedB longInstr = false) ∧
    (decodeBytes [0x20, 0x3E] = .ok (.not .D, 2) ∧ unusedA (.not .D) = false ∧ unusedB (.not .D) = true) ∧
    (decodeBytes [0x23, 0xF9] = .ok (.push (.lit 1), 2) ∧ unusedA (.push (.lit 1)) = true ∧
      unusedB (.push (.lit 1)) = false) := by decide

/-- An operand that has the value of a chosen one and is longer. -/
theorem test_witness_OperandOfAValueIsTheShortest :
    (Src.imm16 5).wf = true ∧ (∀ r, Src.imm16 5 ≠ .reg r) ∧ blank.val (.imm16 5) = 5 := by
  refine ⟨by decide, fun r h => ?_, rfl⟩
  cases h

theorem test_witness_StepRunsDecodedInstruction :
    ∃ t : State, (start [0x10, 0x0B]).mode = .running ∧
      decode (fun k => (start [0x10, 0x0B]).readByte ((start [0x10, 0x0B]).ip + BitVec.ofNat 16 k)) =
        .ok (.add .A (.lit 3), 2) ∧
      exec (.add .A (.lit 3)) ((start [0x10, 0x0B]).setIp ((start [0x10, 0x0B]).ip + BitVec.ofNat 16 2)) =
        .next t :=
  ⟨_, rfl, by decide, rfl⟩

/-- `jmp 0x3000` across 0xFFFF. -/
def acrossTheWrap : State := { place blank 0xFFFF [0x24, 0x0E, 0x00, 0x30] with ip := 0xFFFF }

theorem test_witness_StepRunsEncodedInstruction :
    ∃ t : State, acrossTheWrap.mode = .running ∧ (Instr.jmp (.imm16 0x3000)).wf = true ∧
      (∀ k, k < (Instr.jmp (.imm16 0x3000)).length →
        acrossTheWrap.readByte (acrossTheWrap.ip + BitVec.ofNat 16 k) =
          (encode (.jmp (.imm16 0x3000))).getD k 0) ∧
      exec (.jmp (.imm16 0x3000)) (acrossTheWrap.setIp (acrossTheWrap.ip + BitVec.ofNat 16 4)) = .next t :=
  ⟨_, rfl, rfl, by decide, rfl⟩

theorem test_witness_IllegalInstructionOnlyStopsTheCore :
    ((start [0xFF]).mode = .running ∧ (start [0xFF]).readByte (start [0xFF]).ip ∉ listedOpcodes) ∧
    ((start [0x36, 0xF0]).mode = .running ∧
      (start [0x36, 0xF0]).readByte (start [0x36, 0xF0]).ip ∈ destinationOpcodes ∧
      ((start [0x36, 0xF0]).readByte ((start [0x36, 0xF0]).ip + 1)).getLsbD 7 = true) := by decide

/-- A halted core, and a host operation that leaves Halted. -/
theorem test_witness_HaltedIsTerminalUntilReset :
    halted.mode = .halted ∧ ∃ r t, hostCall .reset halted = .next (r, t) ∧ t.mode ≠ .halted :=
  ⟨rfl, _, _, rfl, by decide⟩

theorem test_witness_StepChargesTheCost :
    (blank.mode = .running ∧ blank.fetch = .ok (.nop, 1) ∧ ∃ t, step blank = .next t) ∧
    ((start [0x05]).mode = .running ∧ (start [0x05]).fetch = .error .illegalOpcode ∧
      ∃ t, step (start [0x05]) = .next t) :=
  ⟨⟨rfl, by decide, _, rfl⟩, rfl, by decide, _, rfl⟩

theorem test_witness_NopOnlyAdvances :
    blank.mode = .running ∧ blank.readByte blank.ip = 0x00 ∧ ∃ t, step blank = .next t :=
  ⟨rfl, by decide, _, rfl⟩

/-- A waiting core, without and with an event. -/
theorem test_witness_WaitingCoreWakesOnAnEvent :
    (({ blank with mode := .waitingForEvent } : State).mode = .waitingForEvent ∧
      ({ blank with mode := .waitingForEvent } : State).ev.kind = .none) ∧
    (({ blank with mode := .waitingForEvent, ev := ⟨.keyUp, 1⟩ } : State).mode = .waitingForEvent ∧
      ({ blank with mode := .waitingForEvent, ev := ⟨.keyUp, 1⟩ } : State).ev.kind ≠ .none) := by decide

/-- The destination clause of AddSubWrapModulo, BitwiseOpsActBitByBit and NotComplementsNegNegates. -/
theorem test_witness_bad_destinations :
    ([0x10, 0x11, 0x12, 0x13, 0x14, 0x20, 0x21].all fun op =>
      decide (BadDestination fun k => [op, 0x80].getD k 0)) = true := by decide

/-- The decode clauses of NotComplementsNegNegates, RetAndPopRaiseTheStackFirst, PushStoresThenLowersTheStack and
JmpAndCallTransferControl. -/
theorem test_witness_decode_clauses :
    Reg.ofCode (codeA 0x7F) = some .S ∧ [0x20, 0x7F].getD 0 0 = (0x20 : Byte) ∧
    [0x21, 0x7F].getD 0 0 = (0x21 : Byte) ∧ [0x22, 0x7F].getD 0 0 = (0x22 : Byte) ∧
    [0x01].getD 0 0 = (0x01 : Byte) ∧ [0x23, 0xF9].getD 0 0 = (0x23 : Byte) ∧
    [0x24, 0xF1].getD 0 0 = (0x24 : Byte) ∧ [0x25, 0xF1].getD 0 0 = (0x25 : Byte) ∧
    BadDestination (fun k => [0x22, 0x80].getD k 0) := by decide

theorem test_witness_JumpsAfterCmpFollowTheSignedOrder :
    ∃ t, exec (.cmp .A (.reg .B)) (start [] [(.A, 0x7FFF), (.B, 0x8000)]) = .next t := ⟨_, rfl⟩

/-- Every pairing of the offset forms at the address 0xFFFF, a zero-extended 0xFF among them. -/
theorem test_witness_StoreThenLoadGivesTheByte :
    (IsStoreByte (.reg .P) (.lit 5) 0 (.store (.reg .P) (.lit 5)) ∧
      IsStoreByte (.imm16 0xFF00) (.lit 5) 0x00FF (.storeOff8 (.imm16 0xFF00) (.lit 5) 0xFF) ∧
      IsStoreByte (.lit 0) (.lit 5) 0xFFFF (.storeOff16 (.lit 0) (.lit 5) 0xFFFF)) ∧
    (IsLoadByte .A (.reg .P) 0 (.load .A (.reg .P)) ∧
      IsLoadByte .A (.imm16 0xFF00) 0x00FF (.loadOff8 .A (.imm16 0xFF00) 0xFF) ∧
      IsLoadByte .A (.lit 0) 0xFFFF (.loadOff16 .A (.lit 0) 0xFFFF)) ∧
    (start [] [(.P, 0xFFFF)]).effAddr (.reg .P) 0 = 0xFFFF ∧
    (start [] [(.P, 0xFFFF)]).effAddr (.imm16 0xFF00) 0x00FF = 0xFFFF ∧
    (start [] [(.P, 0xFFFF)]).effAddr (.lit 0) 0xFFFF = 0xFFFF :=
  ⟨⟨.inl ⟨rfl, rfl⟩, .inr (.inl ⟨0xFF, rfl, rfl⟩), .inr (.inr rfl)⟩,
    ⟨.inl ⟨rfl, rfl⟩, .inr (.inl ⟨0xFF, rfl, rfl⟩), .inr (.inr rfl)⟩, by decide, by decide, by decide⟩

/-- The last pixel, and another one. -/
theorem test_witness_StoreToThePixelAddressIsThePixel :
    blank.params.screen.fits ∧ 3 < blank.params.screen.width ∧ 1 < blank.params.screen.height ∧
      ((2 : Nat) ≠ 3 ∨ (1 : Nat) ≠ 1) := by decide

/-- Each case of a `write`: not present, busy, not writeable, accepted. -/
theorem test_witness_DiskRequestsStartATransferOrPostAnError :
    (Instr.write0 (.reg .A) (.reg .B) = .write0 (.reg .A) (.reg .B) ∧ DriveId.zero = .zero ∧ Dir.wr = .wr) ∧
    (Instr.write1 (.reg .A) (.reg .B) = .write1 (.reg .A) (.reg .B) ∧ DriveId.one = .one ∧ Dir.wr = .wr) ∧
    (Instr.read0 (.reg .A) (.reg .B) = .read0 (.reg .A) (.reg .B) ∧ DriveId.zero = .zero ∧ Dir.rd = .rd) ∧
    (Instr.read1 (.reg .A) (.reg .B) = .read1 (.reg .A) (.reg .B) ∧ DriveId.one = .one ∧ Dir.rd = .rd) := by
  decide

theorem test_witness_OnlyTheListedInstructionsWrite :
    (∃ t, exec (.pop .A) blank = .next t ∧ t.reg .S ≠ blank.reg .S) ∧
    ∃ t, exec (.push (.lit 1)) blank = .next t ∧ t.readByte 0 ≠ blank.readByte 0 :=
  ⟨⟨_, rfl, by decide⟩, _, rfl, by decide⟩

theorem test_witness_OnlyConsumersAndRejectionsChangeTheEvent :
    (∃ t, exec .poll { blank with ev := ⟨.keyDown, 7⟩ } = .next t ∧ t.ev ≠ ⟨.keyDown, 7⟩) ∧
    ∃ t, exec (.read1 (.lit 0) (.lit 0)) blank = .next t ∧ t.ev ≠ blank.ev :=
  ⟨⟨_, rfl, by decide⟩, _, rfl, by decide⟩

/-- `halt`, an illegal opcode, a `wait` that blocks, a wake-up. -/
theorem test_witness_ModeTransitionsAreTheListed :
    (∃ t, step (start [0x02]) = .next t ∧ t.mode ≠ (start [0x02]).mode) ∧
    (∃ t, step (start [0x05]) = .next t ∧ t.mode ≠ (start [0x05]).mode) ∧
    (∃ t, step (start [0x03]) = .next t ∧ t.mode ≠ (start [0x03]).mode) ∧
    ∃ t, step { blank with mode := .waitingForEvent, ev := ⟨.keyUp, 1⟩ } = .next t ∧
      t.mode ≠ .waitingForEvent :=
  ⟨⟨_, rfl, by decide⟩, ⟨_, rfl, by decide⟩, ⟨_, rfl, by decide⟩, _, rfl, by decide⟩

theorem test_witness_InstructionsDoNotReadTheClock :
    driveNamed (.storew (.reg .A) (.reg .B)) = none ∧
      ∃ t, exec (.storew (.reg .A) (.reg .B)) blank = .next t := ⟨rfl, _, rfl⟩

theorem test_witness_ParametersNeverChange :
    (∃ t, step blank = .next t) ∧ ∃ r t, hostCall .init blank = .next (r, t) := ⟨⟨_, rfl⟩, _, _, rfl⟩

theorem test_witness_TickCountsCyclesAndIdleTime : (blank.drive .one).xfer = .idle := rfl

/-- A state in the last cycle of a transfer of drive `d`. -/
def lastCycle (d : DriveId) (dir : Dir) : State := ({ blank with clock := 9 } : State).setDrive d (busyDrive dir 0)

theorem test_witness_due : Due (lastCycle .one .rd) .one ∧ Due (lastCycle .zero .wr) .zero :=
  ⟨⟨_, _, _, _, rfl, by decide⟩, _, _, _, _, rfl, by decide⟩

theorem test_witness_not_due :
    ¬ Due (lastCycle .zero .rd) .one ∧ ¬ Due (lastCycle .one .rd) .zero ∧ ¬ Due (lastCycle .zero .wr) .one ∧
      ¬ Due blank .zero ∧ ¬ Due blank .one := by
  refine ⟨?_, ?_, ?_, ?_, ?_⟩ <;> (rintro ⟨_, _, _, _, h, _⟩; cases h)

/-- With `test_witness_due` and `test_witness_not_due`: TheLastPostOfATickSurvives, and the first half of
CompletionsMoveTheBytes in both directions, in the first cycle in which the transfer is due. -/
theorem test_witness_completions :
    Completing (lastCycle .zero .rd) .zero .rd 0x2000 0x0000 ∧
    Completing (lastCycle .zero .wr) .zero .wr 0x2000 0x0000 ∧ DriveId.one ≠ .zero :=
  ⟨⟨0, rfl, by decide⟩, ⟨0, rfl, by decide⟩, by decide⟩

/-- The second half of CompletionsMoveTheBytes: both drives complete in one `Tick`. -/
theorem test_witness_two_completions :
    let s := (lastCycle .zero .rd).setDrive .one (busyDrive .wr 0)
    Completing s .zero .rd 0x2000 0x0000 ∧ Completing s .one .wr 0x2000 0x0000 :=
  ⟨⟨0, rfl, by decide⟩, 0, rfl, by decide⟩

/-- A fill that is accepted, one of a bound drive, one whose image is not in canonical form. -/
theorem test_witness_HostAccessToBuffersAndScreen :
    (driveOfIndex 0 = some .zero ∧ driveOfIndex 1 = some .one) ∧
    ((blank.drive .zero).present = false ∧ Memory.wf Config.imageBytes [(0xFFFFF, 1)]) ∧
    ((lastCycle .one .rd).drive .one).present = true ∧ ¬ Memory.wf Config.imageBytes [(0x100000, 1)] := by
  decide

/-- In the first and in the last cycle of a transfer. -/
theorem test_witness_TransferEndsExactlyOnTime :
    ((lastCycle .one .rd).drive .one).xfer = .busy .rd 0 0x2000 0x0000 ∧ 0 ≤ (lastCycle .one .rd).clock ∧
      (lastCycle .one .rd).clock < 0 + (lastCycle .one .rd).params.diskTransferCycles ∧
      (lastCycle .one .rd).clock + 0 < 0 + (lastCycle .one .rd).params.diskTransferCycles := by decide

theorem test_blank_inv : blank.Inv where
  mem_wf := by decide
  halt_iff := by decide
  ev_empty := by decide
  keys_wf := by decide
  drive0_ok := ⟨by decide, by decide, by intro _ _ _ _ h; cases h⟩
  drive1_ok := ⟨by decide, by decide, by intro _ _ _ _ h; cases h⟩
  params_ok := ⟨by decide, by decide, by decide, by decide, by decide⟩

theorem test_witness_StepKeepsTheInvariant : blank.Inv ∧ ∃ t, step blank = .next t := ⟨test_blank_inv, _, rfl⟩

/-- Parameters with a boot image and a cost table of their own. -/
theorem test_witness_ResetMeetsTheInvariant :
    ParamsOk { blank.params with bootImage := [(0x0000, 0x02)], cost := [(.halt, 3)] } :=
  ⟨by decide, by decide, by decide, by decide, by decide⟩

theorem test_witness_HostCallsKeepTheInvariant :
    blank.Inv ∧ ∃ r t, hostCall (.insertDisk 1 (some true)) blank = .next (r, t) := ⟨test_blank_inv, _, _, rfl⟩

theorem test_witness_RunAdvancesExactlyItsBudget :
    (∀ m, costIn blank.params.cost m = 1) ∧ ∃ t, run 3 blank = .next t ∧ t.mode ≠ .halted :=
  ⟨fun _ => rfl, _, rfl, by decide⟩

theorem test_witness_RunNeedsNoMoreRounds :
    (∀ m, 1 ≤ costIn blank.params.cost m) ∧ 2 * 3 + 2 ≤ 8 := ⟨fun _ => Nat.le_refl 1, by decide⟩

/-- The last cycle of a budget, a wake-up without budget, and the budget used up in Running and in a wait. -/
theorem test_witness_RunIteratesStep :
    (blank.mode ≠ .halted ∧ 1 ≤ 1 ∧ ∃ t, step blank = .next t) ∧
    (({ blank with mode := .waitingForEvent, ev := ⟨.keyUp, 1⟩ } : State).mode = .waitingForEvent ∧
      ({ blank with mode := .waitingForEvent, ev := ⟨.keyUp, 1⟩ } : State).ev.kind ≠ .none ∧
      ∃ t, step { blank with mode := .waitingForEvent, ev := ⟨.keyUp, 1⟩ } = .next t) ∧
    blank.mode ≠ .waitingForEvent ∧ ({ blank with mode := .waitingForEvent } : State).ev.kind = .none :=
  ⟨⟨by decide, by decide, _, rfl⟩, ⟨rfl, by decide, _, rfl⟩, by decide, rfl⟩

theorem test_witness_ResetRestoresTheInitialState :
    (HostCall.init = .init ∨ HostCall.init = .reset) ∧ (HostCall.reset = .init ∨ HostCall.reset = .reset) := by
  decide

theorem test_witness_keys :
    (0x41 : Word) ∉ blank.keys ∧ (0x41 : Word) ∈ (blank.keyDown 0x41).keys := by decide

/-- The second half of KeyEventsFireOnlyOnAChange: a press and a release while the core waits. -/
theorem test_witness_keys_waiting :
    let up : State := { blank with mode := .waitingForEvent }
    let down : State := { blank with mode := .waitingForEvent, keys := [0x41] }
    (up.mode = .waitingForEvent ∧ (0x41 : Word) ∉ up.keys ∧
      ∃ t, hostCall (.keyDown 0x41) up = .next (.done, t)) ∧
    (down.mode = .waitingForEvent ∧ (0x41 : Word) ∈ down.keys ∧
      ∃ t, hostCall (.keyUp 0x41) down = .next (.done, t)) ∧
    ∀ m, 1 ≤ costIn up.params.cost m :=
  ⟨⟨rfl, by decide, _, rfl⟩, ⟨rfl, by decide, _, rfl⟩, fun _ => Nat.le_refl 1⟩

/-- The first bad index, and each drive while Busy. -/
theorem test_witness_HostMisuseIsRefused :
    2 ≤ 2 ∧ driveOfIndex 0 = some .zero ∧ driveOfIndex 1 = some .one ∧
      ((lastCycle .zero .rd).drive .zero).xfer ≠ .idle ∧ ((lastCycle .one .rd).drive .one).xfer ≠ .idle := by decide

theorem test_witness_InsertAndRemoveBindTheDrive :
    driveOfIndex 1 = some .one ∧ (blank.drive .one).xfer = .idle := by decide

/-- The idle counter at its bound. -/
theorem test_witness_DiskStatsPacksDirtyAndIdle :
    driveOfIndex 0 = some .zero ∧ (blank.drive .zero).idle = 2147483647 := by decide

end Sys2Proof.Tests
end

section
/-!
PROOFS. The two memory access primitives (20_memory.md R31, R32): the bytes of a word as numbers, one read-after-write
rule per write at a numeric address, and the obligation about them.
-/

namespace Sys2Proof.Machine

/-! ## The bytes of a word -/

@[simp] theorem loByte_toNat (v : Word) : (loByte v).toNat = v.toNat % 256 :=
  BitVec.toNat_ofNat v.toNat 8

@[simp] theorem hiByte_toNat (v : Word) : (hiByte v).toNat = v.toNat / 256 := by
  have hv := v.isLt
  rw [hiByte, BitVec.toNat_ofNat]
  omega

@[simp] theorem wordOfBytes_toNat (lo hi : Byte) : (wordOfBytes lo hi).toNat = lo.toNat + 256 * hi.toNat := by
  have hlo := lo.isLt
  have hhi := hi.isLt
  rw [wordOfBytes, BitVec.toNat_ofNat]
  omega

/-! ## The address after an address -/

/-- Addresses are reduced modulo 2^16 (R30). -/
theorem Word.toNat_succ (a : Word) : (a + 1).toNat = (a.toNat + 1) % 65536 :=
  BitVec.toNat_add a 1

theorem Word.succ_mod_ne (a : Word) : (a.toNat + 1) % 65536 ≠ a.toNat := by
  have ha := a.isLt
  omega

/-! ## Reads and writes at numeric addresses -/

/-- `MemRead(addr, 2)` as a number (R31). -/
theorem State.readWord_toNat (s : State) (a : Word) :
    (s.readWord a).toNat = (s.mem.read a.toNat).toNat + 256 * (s.mem.read ((a.toNat + 1) % 65536)).toNat := by
  rw [State.readWord, wordOfBytes_toNat, State.readByte, State.readByte, Word.toNat_succ]

/-- Every byte of memory after `MemWrite(addr, 1, v)` (R32). -/
theorem State.writeByte_mem_read (s : State) (a : Word) (v : Byte) (b : Nat) :
    (s.writeByte a v).mem.read b = if a.toNat = b then v else s.mem.read b := by
  rw [State.writeByte_mem, Memory.read_write]

/-- Every byte of memory after `MemWrite(addr, 2, v)` (R32). -/
theorem State.writeWord_mem_read (s : State) (a v : Word) (b : Nat) :
    (s.writeWord a v).mem.read b =
      if (a.toNat + 1) % 65536 = b then hiByte v else if a.toNat = b then loByte v else s.mem.read b := by
  rw [State.writeWord, State.writeByte_mem_read, State.writeByte_mem_read, Word.toNat_succ]

/-- `MemWrite(addr, 1, v)`: the named byte, the other bytes, and the rest of the state (R32). -/
theorem State.writeByte_spec (s : State) (addr v : Word) :
    ((s.writeByte addr (loByte v)).mem.read addr.toNat).toNat = v.toNat % 256 ∧
    (∀ a, a ≠ addr.toNat → (s.writeByte addr (loByte v)).mem.read a = s.mem.read a) ∧
    s.writeByte addr (loByte v) = { s with mem := (s.writeByte addr (loByte v)).mem } := by
  refine ⟨?named, fun a ha => ?others, rfl⟩
  case named => rw [State.writeByte_mem_read, if_pos rfl, loByte_toNat]
  case others => rw [State.writeByte_mem_read, if_neg ha.symm]

/-- `MemWrite(addr, 2, v)`: the two named bytes, the other bytes, and the rest of the state (R32). The second write
does not disturb the first because the two addresses differ, also across the wrap. -/
theorem State.writeWord_spec (s : State) (addr v : Word) :
    ((s.writeWord addr v).mem.read addr.toNat).toNat = v.toNat % 256 ∧
    ((s.writeWord addr v).mem.read ((addr.toNat + 1) % 65536)).toNat = v.toNat / 256 ∧
    (∀ a, a ≠ addr.toNat → a ≠ (addr.toNat + 1) % 65536 → (s.writeWord addr v).mem.read a = s.mem.read a) ∧
    s.writeWord addr v = { s with mem := (s.writeWord addr v).mem } := by
  refine ⟨?low, ?high, fun a hlo hhi => ?others, rfl⟩
  case low => rw [State.writeWord_mem_read, if_neg (Word.succ_mod_ne addr), if_pos rfl, loByte_toNat]
  case high => rw [State.writeWord_mem_read, if_pos rfl, hiByte_toNat]
  case others => rw [State.writeWord_mem_read, if_neg hhi.symm, if_neg hlo.symm]

/-- Settles O31: the rules of the two reads and the two writes, put together. -/
theorem memReadAndMemWrite : Obligations.MemReadAndMemWrite :=
  fun s addr => ⟨rfl, s.readWord_toNat addr, s.writeByte_spec addr, s.writeWord_spec addr⟩

end Sys2Proof.Machine
end

section
/-!
PROOFS. Machine control: `nop` (40_machine_control.md R70). First how a step of a running core is put together from
its parts: the byte at `ip`, an opcode without an operand byte, the instruction's effect, the cycles it is charged.
-/

namespace Sys2Proof.Machine

/-! ## Fetch of an instruction without an operand byte -/

/-- The opcode byte is the one at `ip` itself (R55). -/
@[simp] theorem State.fetchByte_zero (s : State) : s.fetchByte 0 = s.readByte s.ip := by
  rw [State.fetchByte, BitVec.add_zero]

/-- An opcode of format F0 is the whole instruction (R52): the bytes after it play no part. -/
theorem decode_of_layoutOf_f0 {rd : Nat → Byte} {i : Instr} (h : layoutOf (rd 0) = some (.f0 i)) :
    decode rd = .ok (i, 1) := by
  simp only [decode, h, decodeLayout]

/-- The rule `decode_of_layoutOf_f0` for the byte at `ip`. -/
theorem State.fetch_of_layoutOf_f0 {s : State} {i : Instr} (h : layoutOf (s.readByte s.ip) = some (.f0 i)) :
    s.fetch = .ok (i, 1) :=
  decode_of_layoutOf_f0 (by rwa [State.fetchByte_zero])

/-! ## A step of a running core -/

/-- A Running round whose instruction answers a next state: its effect at `next_ip`, then its cycles (R152, R153). -/
theorem step_of_exec {s u : State} {i : Instr} {n : Nat} (hm : s.mode = .running) (hf : s.fetch = .ok (i, n))
    (he : exec i (s.setIp (s.nextIp n)) = .next u) : step s = .next (u.ticks (s.cost i)) := by
  rw [step_running hm, runningRound, stepInstr_of_next hf he]

/-! ## `nop` -/

theorem exec_nop (s : State) : exec .nop s = .next s := rfl

/-- 0x00 is the opcode byte of `nop` (R56, R70). -/
theorem layoutOf_nop : layoutOf 0x00 = some (.f0 .nop) := rfl

/-- A step of `nop`: `ip` moves past the one byte, then the cycles pass. -/
theorem step_nop {s : State} (hm : s.mode = .running) (hb : s.readByte s.ip = 0x00) :
    step s = .next ((s.setIp (s.ip + 1)).ticks (costIn s.params.cost .nop)) := by
  have hf : s.fetch = .ok (.nop, 1) := State.fetch_of_layoutOf_f0 (by rw [hb, layoutOf_nop])
  exact step_of_exec hm hf (exec_nop _)

/-- Settles O14: the encoding and the effect from the definitions, the step from `step_nop`, whose answer is the
only one. -/
theorem nopOnlyAdvances : Obligations.NopOnlyAdvances := by
  refine ⟨rfl, exec_nop, fun s t hm hb hstep => ?_⟩
  rw [step_nop hm hb] at hstep
  cases hstep
  rfl

end Sys2Proof.Machine
end

section
/-!
PROOFS. ALU: `add sub xor and or not neg` (41_alu.md R81 to R85, R89, R90). First what each layer says once: the
frame of a register write, decode with a good and with a bad destination code; then one equation per instruction.
-/

namespace Sys2Proof

/-! ## The destination field (30_encoding.md R58) -/

theorem Reg.ofCode_eq_none {c : BitVec 4} (h : 8 ≤ c.toNat) : Reg.ofCode c = none := by
  unfold Reg.ofCode
  split
  case h_9 => rfl
  all_goals omega

/-- Bit 7 of the operand byte is the top bit of `ca` (R51). -/
theorem codeA_ge_of_badDestination {rd : Nat → Byte} (h : Claims.BadDestination rd) : 8 ≤ (codeA (rd 1)).toNat := by
  have hbit : (rd 1).toNat ≥ 128 := BitVec.toNat_ge_of_msb_true h
  have hlt := (rd 1).isLt
  rw [codeA, BitVec.toNat_ofNat]
  omega

/-- The formats whose field `a` is a destination register: F2, F1A and the three of FL (R52). -/
def Layout.hasDest : Layout → Bool
  | .f2 _ | .f1a _ | .fl _ | .fl8 _ | .fl16 _ => true
  | .f0 _ | .f1b _ | .fj _ | .fs _ | .fs8 _ | .fs16 _ | .fd _ => false

theorem withDest_of_some {ob : Byte} {k : Reg → Instr × Nat} {a : Reg} (h : Reg.ofCode (codeA ob) = some a) :
    withDest ob k = .ok (k a) := by
  simp only [withDest, h]

theorem withDest_of_none {ob : Byte} {k : Reg → Instr × Nat} (h : Reg.ofCode (codeA ob) = none) :
    withDest ob k = .error .illegalDestination := by
  simp only [withDest, h]

/-- In a format with a destination the check of R58 comes before anything else is decoded. -/
theorem decodeLayout_of_none (rd : Nat → Byte) {ob : Byte} (h : Reg.ofCode (codeA ob) = none) {l : Layout}
    (hl : l.hasDest = true) : decodeLayout rd ob l = .error .illegalDestination := by
  cases l with
  | f2 | f1a | fl | fl8 | fl16 => exact withDest_of_none h
  | f0 | f1b | fj | fs | fs8 | fs16 | fd => cases hl

/-- A list of opcodes that all have a destination is illegal with a destination code above 7 (R58). -/
theorem decode_of_badDestination {rd : Nat → Byte} {ops : List Byte} (hmem : rd 0 ∈ ops)
    (hops : ∀ op ∈ ops, (layoutOf op).any Layout.hasDest = true) (hbad : Claims.BadDestination rd) :
    decode rd = .error .illegalDestination := by
  have hdest := hops _ hmem
  cases hl : layoutOf (rd 0) with
  | none => rw [hl] at hdest; cases hdest
  | some l =>
    rw [hl] at hdest
    simp only [decode, hl]
    exact decodeLayout_of_none rd (Reg.ofCode_eq_none (codeA_ge_of_badDestination hbad)) hdest

/-- Format F1A: the register of `ca`, two bytes, whatever `cb` is (R52, R60). -/
theorem decode_of_layoutOf_f1a {rd : Nat → Byte} {mk : Reg → Instr} {a : Reg}
    (hl : layoutOf (rd 0) = some (.f1a mk)) (ha : Reg.ofCode (codeA (rd 1)) = some a) :
    decode rd = .ok (mk a, 2) := by
  simp only [decode, hl, decodeLayout, withDest_of_some ha]

/-- 0x20 is the opcode byte of `not` (R56). -/
theorem layoutOf_not : layoutOf 0x20 = some (.f1a .not) := rfl

/-- 0x21 is the opcode byte of `neg` (R56). -/
theorem layoutOf_neg : layoutOf 0x21 = some (.f1a .neg) := rfl

end Sys2Proof

namespace Sys2Proof.Machine

/-! ## The frame of a register write (R80) -/

theorem State.frame_setReg (s : State) (a : Reg) (v : Word) : Claims.Frame s (s.setReg a v) [a] [] := by
  refine ⟨fun r hr => ?regs, fun addr _ => s.setReg_readByte a v addr, ⟨rfl, rfl⟩, rfl,
    ⟨rfl, fun d => s.setReg_drive a v d, rfl, rfl⟩⟩
  case regs => exact s.reg_setReg_other v (List.ne_of_not_mem_cons hr)

/-! ## The register write each instruction is -/

theorem exec_add (a : Reg) (b : Src) (s : State) :
    exec (.add a b) s = .next (s.setReg a (s.reg a + s.val b)) := rfl

theorem exec_sub (a : Reg) (b : Src) (s : State) :
    exec (.sub a b) s = .next (s.setReg a (s.reg a - s.val b)) := rfl

theorem exec_xor (a : Reg) (b : Src) (s : State) :
    exec (.xor a b) s = .next (s.setReg a (s.reg a ^^^ s.val b)) := rfl

theorem exec_and (a : Reg) (b : Src) (s : State) :
    exec (.and a b) s = .next (s.setReg a (s.reg a &&& s.val b)) := rfl

theorem exec_or (a : Reg) (b : Src) (s : State) :
    exec (.or a b) s = .next (s.setReg a (s.reg a ||| s.val b)) := rfl

theorem exec_not (a : Reg) (s : State) : exec (.not a) s = .next (s.setReg a (~~~ s.reg a)) := rfl

theorem exec_neg (a : Reg) (s : State) : exec (.neg a) s = .next (s.setReg a (0 - s.reg a)) := rfl

/-! ## The values as numbers -/

theorem Word.toNat_sub_eq (x y : Word) : (x - y).toNat = (x.toNat + 65536 - y.toNat) % 65536 := by
  have hy := y.isLt
  rw [BitVec.toNat_sub]
  omega

theorem Word.toNat_zero_sub_add (x : Word) : ((0 - x).toNat + x.toNat) % 65536 = 0 := by
  rw [Word.toNat_sub_eq]
  have hx := x.isLt
  have h0 : (0 : Word).toNat = 0 := rfl
  omega

/-! ## The obligations -/

/-- Settles O19: each is one register write, whose frame is `State.frame_setReg`. -/
theorem addSubWrapModulo : Obligations.AddSubWrapModulo := by
  refine ⟨fun a b s => ⟨_, exec_add a b s, ?add, rfl, s.frame_setReg a _⟩,
    fun a b s => ⟨_, exec_sub a b s, ?sub, rfl, s.frame_setReg a _⟩,
    fun _ _ => ⟨rfl, rfl⟩, fun _ hop hbad => decode_of_badDestination hop (by decide) hbad⟩
  case add => rw [State.reg_setReg_same, BitVec.toNat_add]
  case sub => rw [State.reg_setReg_same, Word.toNat_sub_eq]

/-- Settles O20: each is one register write, and the library's rule for each operation gives its bits. -/
theorem bitwiseOpsActBitByBit : Obligations.BitwiseOpsActBitByBit := by
  refine ⟨fun a b s => ⟨_, exec_xor a b s, fun k => ?xor, rfl, s.frame_setReg a _⟩,
    fun a b s => ⟨_, exec_and a b s, fun k => ?and, rfl, s.frame_setReg a _⟩,
    fun a b s => ⟨_, exec_or a b s, fun k => ?or, rfl, s.frame_setReg a _⟩,
    fun _ _ => ⟨rfl, rfl, rfl⟩, fun _ hop hbad => decode_of_badDestination hop (by decide) hbad⟩
  case xor => rw [State.reg_setReg_same, BitVec.getLsbD_xor]
  case and => rw [State.reg_setReg_same, BitVec.getLsbD_and]
  case or => rw [State.reg_setReg_same, BitVec.getLsbD_or]

/-- Settles O23: each is one register write; `cb` plays no part in format F1A. -/
theorem notComplementsNegNegates : Obligations.NotComplementsNegNegates := by
  refine ⟨fun a s => ⟨_, exec_not a s, ?not, rfl, s.frame_setReg a _⟩,
    fun a s => ⟨_, exec_neg a s, ?neg, rfl, s.frame_setReg a _⟩,
    fun rd a ha => ⟨fun hop => ?decodeNot, fun hop => ?decodeNeg⟩,
    fun _ hop hbad => decode_of_badDestination hop (by decide) hbad⟩
  case not => rw [State.reg_setReg_same, BitVec.toNat_not]
  case neg => rw [State.reg_setReg_same, Word.toNat_zero_sub_add]
  case decodeNot => exact decode_of_layoutOf_f1a (by rw [hop, layoutOf_not]) ha
  case decodeNeg => exact decode_of_layoutOf_f1a (by rw [hop, layoutOf_neg]) ha

end Sys2Proof.Machine
end

section
/-!
PROOFS. The stack: `ret pop push` (42_stack_and_control_transfer.md R99 to R102). First how frames compose and the
frame of each operation these are made of; then the format F1B and one equation per instruction.
-/

namespace Sys2Proof

/-! ## The format with one source operand (30_encoding.md R52) -/

/-- Format F1B: the operand of `cb`, whatever `ca` is (R52, R60). -/
theorem decode_of_layoutOf_f1b {rd : Nat → Byte} {mk : Src → Instr} (hl : layoutOf (rd 0) = some (.f1b mk)) :
    decode rd = .ok (mk (srcAt rd (codeB (rd 1)) 2).1, (srcAt rd (codeB (rd 1)) 2).2) := by
  simp only [decode, hl, decodeLayout]

/-- 0x01 is the opcode byte of `ret` (R56). -/
theorem layoutOf_ret : layoutOf 0x01 = some (.f0 .ret) := rfl

/-- 0x22 is the opcode byte of `pop` (R56). -/
theorem layoutOf_pop : layoutOf 0x22 = some (.f1a .pop) := rfl

/-- 0x23 is the opcode byte of `push` (R56). -/
theorem layoutOf_push : layoutOf 0x23 = some (.f1b .push) := rfl

end Sys2Proof

namespace Sys2Proof.Claims

/-- Two changes in a row: what either may change, the two together may change. -/
theorem Frame.trans {s t u : Machine.State} {rs rs' : List Reg} {ms ms' : List Word} (hst : Frame s t rs ms)
    (htu : Frame t u rs' ms') : Frame s u (rs' ++ rs) (ms' ++ ms) := by
  obtain ⟨hreg, hmem, ⟨hmode, hcause⟩, hev, hclock, hdrive, hkeys, hparams⟩ := hst
  obtain ⟨hreg', hmem', ⟨hmode', hcause'⟩, hev', hclock', hdrive', hkeys', hparams'⟩ := htu
  refine ⟨fun r hr => ?regs, fun a ha => ?mem, ⟨hmode'.trans hmode, hcause'.trans hcause⟩, hev'.trans hev,
    hclock'.trans hclock, fun d => (hdrive' d).trans (hdrive d), hkeys'.trans hkeys, hparams'.trans hparams⟩
  case regs =>
    exact (hreg' r (mt (List.mem_append_left rs) hr)).trans (hreg r (mt (List.mem_append_right rs') hr))
  case mem =>
    exact (hmem' a (mt (List.mem_append_left ms) ha)).trans (hmem a (mt (List.mem_append_right ms') ha))

end Sys2Proof.Claims

namespace Sys2Proof.Machine

/-! ## The frames of the operations -/

/-- Moving `ip` changes nothing that a frame speaks of (10_state.md R12). -/
theorem State.frame_setIp (s : State) (v : Word) : Claims.Frame s (s.setIp v) [] [] :=
  ⟨fun r _ => s.setIp_reg v r, fun a _ => s.setIp_readByte v a, ⟨rfl, rfl⟩, rfl,
    ⟨rfl, fun d => s.setIp_drive v d, rfl, rfl⟩⟩

/-- `MemWrite(addr, 2, v)` changes the two addressed bytes (20_memory.md R32). -/
theorem State.frame_writeWord (s : State) (a v : Word) : Claims.Frame s (s.writeWord a v) [] [a, a + 1] := by
  refine ⟨fun r _ => s.writeWord_reg a v r, fun b hb => ?mem, ⟨rfl, rfl⟩, rfl,
    ⟨rfl, fun d => s.writeWord_drive a v d, rfl, rfl⟩⟩
  case mem =>
    have hlo : b ≠ a := List.ne_of_not_mem_cons hb
    have hhi : b ≠ a + 1 := List.ne_of_not_mem_cons (List.not_mem_of_not_mem_cons hb)
    rw [State.readByte_writeWord, if_neg hhi, if_neg hlo]

/-- Raising the stack changes S (R99). -/
theorem State.frame_raiseStack (s : State) : Claims.Frame s s.raiseStack [.S] [] :=
  s.frame_setReg .S _

/-- A push changes S and the two bytes at the old S (R99, R102). -/
theorem State.frame_pushWord (s : State) (v : Word) :
    Claims.Frame s (s.pushWord v) [.S] [s.reg .S, s.reg .S + 1] :=
  (s.frame_writeWord (s.reg .S) v).trans ((s.writeWord (s.reg .S) v).frame_setReg .S _)

/-! ## The stack operations as values -/

/-- The word `ret` and `pop` load is the one above the old S (R99). -/
theorem State.stackTop_raiseStack (s : State) : s.raiseStack.stackTop = s.readWord (s.reg .S + 2) := by
  rw [State.stackTop, State.raiseStack_readWord, State.reg_raiseStack, if_pos rfl]

/-- The byte at the old S after a push is the low byte: the high byte goes to another address, also across the
wrap. -/
theorem State.readByte_pushWord_low (s : State) (v : Word) : (s.pushWord v).readByte (s.reg .S) = loByte v := by
  rw [State.readByte_pushWord, if_neg (word_ne_succ (s.reg .S)), if_pos rfl]

/-- The byte after the old S after a push is the high byte. -/
theorem State.readByte_pushWord_high (s : State) (v : Word) :
    (s.pushWord v).readByte (s.reg .S + 1) = hiByte v := by
  rw [State.readByte_pushWord, if_pos rfl]

/-! ## What each instruction is -/

theorem exec_ret (s : State) : exec .ret s = .next (s.raiseStack.setIp (s.readWord (s.reg .S + 2))) := by
  rw [exec, execRet, State.stackTop_raiseStack]

theorem exec_pop (a : Reg) (s : State) :
    exec (.pop a) s = .next (s.raiseStack.setReg a (s.readWord (s.reg .S + 2))) := by
  rw [exec, execPop, State.stackTop_raiseStack]

theorem exec_push (b : Src) (s : State) : exec (.push b) s = .next (s.pushWord (s.val b)) := rfl

/-! ## The obligations -/

/-- Settles O24: `ret` raises S and then moves `ip`, `pop` raises S and then writes its destination; so `pop S`
overwrites the raised S, and any other destination leaves it. -/
theorem retAndPopRaiseTheStackFirst : Obligations.RetAndPopRaiseTheStackFirst := by
  refine ⟨fun s => ⟨_, exec_ret s, ?retS, rfl, s.frame_raiseStack.trans (State.frame_setIp _ _)⟩,
    fun a s => ⟨_, exec_pop a s, State.reg_setReg_same _ _ _, fun ha => ?popS, rfl,
      s.frame_raiseStack.trans (State.frame_setReg _ a _)⟩,
    fun rd hop => decode_of_layoutOf_f0 (by rw [hop, layoutOf_ret]),
    fun rd a hop ha => decode_of_layoutOf_f1a (by rw [hop, layoutOf_pop]) ha,
    fun rd hop hbad => decode_of_badDestination (List.mem_singleton.mpr hop) (by decide) hbad⟩
  case retS => rw [State.setIp_reg, State.reg_raiseStack, if_pos rfl]
  case popS => rw [State.reg_setReg_other _ _ ha.symm, State.reg_raiseStack, if_pos rfl]

/-- Settles O25: `push` is one push of the operand's value, whose bytes, S and frame are the rules above. -/
theorem pushStoresThenLowersTheStack : Obligations.PushStoresThenLowersTheStack := by
  refine ⟨fun b s => ⟨_, exec_push b s, ?low, ?high, ?lowered, rfl, s.frame_pushWord _⟩,
    fun rd hop => decode_of_layoutOf_f1b (by rw [hop, layoutOf_push])⟩
  case low => rw [State.readByte_pushWord_low, loByte_toNat]
  case high => rw [State.readByte_pushWord_high, hiByte_toNat]
  case lowered => rw [State.reg_pushWord, if_pos rfl]

end Sys2Proof.Machine
end

section
/-!
PROOFS. The host and the drives (60_exceptions.md R163, R164, R175 to R178, R181). First what each layer answers once:
a drive index that is good or bad, a drive that is Busy, a buffer that may be filled or not.
-/

namespace Sys2Proof.Machine

/-! ## The drive index (R181) -/

theorem driveOfIndex_eq_none {n : Nat} (h : 2 ≤ n) : driveOfIndex n = none := by
  match n, h with
  | _ + 2, _ => rfl

theorem onDrive_of_some {s : State} {n : Nat} {d : DriveId} (h : driveOfIndex n = some d)
    (k : DriveId → HostReply × State) : onDrive s n k = k d := by
  simp only [onDrive, h]

theorem onDrive_of_none {s : State} {n : Nat} (h : driveOfIndex n = none) (k : DriveId → HostReply × State) :
    onDrive s n k = (.refused, s) := by
  simp only [onDrive, h]

/-! ## A Busy drive (R175, R176) -/

theorem State.insertDisk_of_busy {s : State} {d : DriveId} (h : (s.drive d).xfer ≠ .idle) (ro : Bool) :
    s.insertDisk d ro = none := by
  rw [State.insertDisk, if_pos h]

theorem State.removeDisk_of_busy {s : State} {d : DriveId} (h : (s.drive d).xfer ≠ .idle) :
    s.removeDisk d = none := by
  rw [State.removeDisk, if_pos h]

/-! ## Filling a buffer (R177, log entry 11) -/

theorem State.fillBuffer_of_unbound {s : State} {d : DriveId} {m : Memory} (hp : (s.drive d).present = false)
    (hm : m.wf Config.imageBytes) : s.fillBuffer d m = some (s.setDrive d { s.drive d with image := m }) := by
  have hunbound : ¬ (s.drive d).present = true := by rw [hp]; exact Bool.false_ne_true
  rw [State.fillBuffer, if_neg hunbound, if_pos hm]

/-- A fill that is carried out had an unbound drive and a canonical image; so any other one is refused. -/
theorem State.fillBuffer_of_bound_or_not_wf {s : State} {d : DriveId} {m : Memory}
    (h : (s.drive d).present = true ∨ ¬ m.wf Config.imageBytes) : s.fillBuffer d m = none := by
  cases hfill : s.fillBuffer d m with
  | none => rfl
  | some t =>
    obtain ⟨hp, hm, -⟩ := State.fillBuffer_eq_some hfill
    rcases h with hbound | hwf
    · rw [hp] at hbound
      cases hbound
    · exact absurd hm hwf

/-! ## The drive-active indicator (R164) -/

theorem State.driveActive_iff (s : State) (d : DriveId) :
    s.driveActive d = true ↔ 2 * (s.drive d).idle < s.params.cycleRate :=
  decide_eq_true_iff

/-! ## The operations on a drive index -/

/-- A bad index is refused by every operation that takes one (R181). -/
theorem hostCall_of_bad_index (s : State) {n : Nat} (hn : 2 ≤ n) (ro : Option Bool) (m : Memory) :
    hostCall (.insertDisk n ro) s = .next (.refused, s) ∧
    hostCall (.removeDisk n) s = .next (.refused, s) ∧
    hostCall (.readBuffer n) s = .next (.refused, s) ∧
    hostCall (.fillBuffer n m) s = .next (.refused, s) ∧
    hostCall (.diskStats n) s = .next (.refused, s) := by
  have hrefused := onDrive_of_none (s := s) (driveOfIndex_eq_none hn)
  exact ⟨congrArg _ (hrefused _), congrArg _ (hrefused _), congrArg _ (hrefused _), congrArg _ (hrefused _),
    congrArg _ (hrefused _)⟩

theorem hostCall_insertDisk {s : State} {n : Nat} {d : DriveId} (hd : driveOfIndex n = some d) (ro : Option Bool) :
    hostCall (.insertDisk n ro) s = .next (replyTo s (s.insertDisk d (ro.getD false))) := by
  rw [hostCall, onDrive_of_some hd]

theorem hostCall_removeDisk {s : State} {n : Nat} {d : DriveId} (hd : driveOfIndex n = some d) :
    hostCall (.removeDisk n) s = .next (replyTo s (s.removeDisk d)) := by
  rw [hostCall, onDrive_of_some hd]

theorem hostCall_readBuffer {s : State} {n : Nat} {d : DriveId} (hd : driveOfIndex n = some d) :
    hostCall (.readBuffer n) s = .next (.image (s.drive d).image, s) := by
  rw [hostCall, onDrive_of_some hd]

theorem hostCall_fillBuffer {s : State} {n : Nat} {d : DriveId} (hd : driveOfIndex n = some d) (m : Memory) :
    hostCall (.fillBuffer n m) s = .next (replyTo s (s.fillBuffer d m)) := by
  rw [hostCall, onDrive_of_some hd]

/-! ## The obligations -/

/-- Settles O58: a bad index is refused before the operation is looked at, and a Busy drive's binding by the
operation itself. -/
theorem hostMisuseIsRefused : Obligations.HostMisuseIsRefused := by
  refine fun s n ro m => ⟨fun hn => hostCall_of_bad_index s hn ro m, fun d hd hbusy => ⟨?insert, ?remove⟩⟩
  case insert => rw [hostCall_insertDisk hd, State.insertDisk_of_busy hbusy, replyTo]
  case remove => rw [hostCall_removeDisk hd, State.removeDisk_of_busy hbusy, replyTo]

/-- Settles O47: an accepted fill is one `setDrive`, whose frame is that of the state's own laws; the reads and the
indicator are read off the state. -/
theorem hostAccessToBuffersAndScreen : Obligations.HostAccessToBuffersAndScreen := by
  refine ⟨fun s n d hd => hostCall_readBuffer hd, fun s n d m hd hp hm => ?accepted, fun s n d m hd hno => ?refused,
    fun s => ⟨rfl, rfl, rfl⟩, State.driveActive_iff⟩
  case accepted =>
    refine ⟨s.setDrive d { s.drive d with image := m }, ?reply, s.setDrive_drive_same d _,
      fun e he => s.setDrive_drive_other _ he, s.setDrive_ev d _, s.setDrive_mem d _, s.setDrive_regs d _,
      s.setDrive_ip d _, s.setDrive_clock d _, s.setDrive_keys d _, s.setDrive_params d _,
      s.setDrive_mode d _, s.setDrive_haltCause d _⟩
    rw [hostCall_fillBuffer hd, State.fillBuffer_of_unbound hp hm, replyTo]
  case refused => rw [hostCall_fillBuffer hd, State.fillBuffer_of_bound_or_not_wf hno, replyTo]

end Sys2Proof.Machine
end

section
/-!
PROOFS. The rounds of `run` (60_exceptions.md R153). No instruction changes the parameters, so every cost stays
positive; then every round of the loop that does not return lowers a bound on the rounds to come, and rounds beyond
that bound change nothing (log entry 9).
-/

namespace Sys2Proof.Machine

/-! ## An instruction answers, and keeps the parameters (10_state.md R27) -/

@[simp] theorem State.jumpIf_params (s : State) (p : Word → Bool) (a b : Src) :
    (s.jumpIf p a b).params = s.params := by
  rw [State.jumpIf_eq, State.setIp_params]

@[simp] theorem State.requestRead_params (s : State) (d : DriveId) (ma da : Word) :
    (s.requestRead d ma da).params = s.params := by
  rcases s.requestRead_cases d ma da with ⟨-, h⟩ | ⟨-, -, h⟩ | ⟨-, -, h⟩ <;> simp [h]

@[simp] theorem State.requestWrite_params (s : State) (d : DriveId) (ma da : Word) :
    (s.requestWrite d ma da).params = s.params := by
  rcases s.requestWrite_cases d ma da with ⟨-, h⟩ | ⟨-, -, h⟩ | ⟨-, -, -, h⟩ | ⟨-, -, -, h⟩ <;> simp [h]

/-- Every instruction answers a next state with the parameters it was given. -/
theorem exec_answers_with_params (i : Instr) (s : State) : ∃ t, exec i s = .next t ∧ t.params = s.params := by
  cases i with
  | wait => exact ⟨_, rfl, by split <;> rfl⟩
  | jez | jnz | jl | jg | jle | jge => exact ⟨_, rfl, s.jumpIf_params _ _ _⟩
  | read0 | read1 => exact ⟨_, rfl, s.requestRead_params _ _ _⟩
  | write0 | write1 => exact ⟨_, rfl, s.requestWrite_params _ _ _⟩
  | nop | ret | halt | poll | add | sub | xor | and | or | shl | shr | cmp | not | neg | pop | push | jmp | call
  | load | loadOff8 | loadOff16 | loadw | loadwOff8 | loadwOff16
  | store | storeOff8 | storeOff16 | storew | storewOff8 | storewOff16 => exact ⟨_, rfl, rfl⟩

/-- `Step()` answers a next state with the same parameters, and charges some mnemonic's cost unless it halts. -/
theorem stepInstr_answers (s : State) : ∃ t c, stepInstr s = .next (t, c) ∧ t.params = s.params ∧
    (t.mode = .halted ∨ ∃ m, c = costIn s.params.cost m) := by
  cases hf : s.fetch with
  | error e => exact ⟨_, _, stepInstr_of_illegal hf, s.raiseIllegal_params e, .inl (s.raiseIllegal_mode e)⟩
  | ok p =>
    obtain ⟨t, ht, hparams⟩ := exec_answers_with_params p.1 (s.setIp (s.nextIp p.2))
    exact ⟨t, _, stepInstr_of_next hf ht, hparams, .inr ⟨p.1.mnemonic, rfl⟩⟩

/-! ## One round of the loop -/

theorem runLoop_wakeUp {s : State} (hm : s.mode = .waitingForEvent) (hk : s.ev.kind ≠ .none) (fuel rem : Nat) :
    runLoop (fuel + 1) rem s = runLoop fuel rem s.wakeUp := by
  simp [runLoop, hm, hk]

theorem runLoop_tick {s : State} (hm : s.mode = .waitingForEvent) (hk : s.ev.kind = .none) (fuel rem : Nat) :
    runLoop (fuel + 1) (rem + 1) s = runLoop fuel rem s.tick := by
  simp [runLoop, hm, hk]

theorem runLoop_stepInstr {s t : State} {c : Nat} (hm : s.mode = .running) (hs : stepInstr s = .next (t, c))
    (fuel rem : Nat) : runLoop (fuel + 1) (rem + 1) s = runLoop fuel (rem + 1 - c) (t.ticks c) := by
  simp [runLoop, hm, hs]

/-! ## How many rounds are left -/

/-- A bound on the rounds before the loop returns: two for each cycle of budget, for an instruction that blocks and the
wake-up after it, and one more for a wake-up at the start. -/
def roundsLeft (rem : Nat) (s : State) : Nat :=
  match s.mode with
  | .halted => 0
  | .running => 2 * rem
  | .waitingForEvent => 2 * rem + 1

theorem roundsLeft_halted {s : State} (h : s.mode = .halted) (rem : Nat) : roundsLeft rem s = 0 := by
  simp only [roundsLeft, h]

theorem roundsLeft_running {s : State} (h : s.mode = .running) (rem : Nat) : roundsLeft rem s = 2 * rem := by
  simp only [roundsLeft, h]

theorem roundsLeft_waiting {s : State} (h : s.mode = .waitingForEvent) (rem : Nat) :
    roundsLeft rem s = 2 * rem + 1 := by
  simp only [roundsLeft, h]

theorem roundsLeft_le (rem : Nat) (s : State) : roundsLeft rem s ≤ 2 * rem + 1 := by
  cases hm : s.mode with
  | running => rw [roundsLeft_running hm]; omega
  | halted => rw [roundsLeft_halted hm]; omega
  | waitingForEvent => rw [roundsLeft_waiting hm]

/-- An instruction leaves fewer rounds: it is charged at least one cycle, or it was illegal and the core is halted. -/
theorem roundsLeft_stepInstr_lt {s t : State} {c : Nat} (hcost : ∀ m, 1 ≤ costIn s.params.cost m)
    (hcharge : t.mode = .halted ∨ ∃ m, c = costIn s.params.cost m) (rem : Nat) :
    roundsLeft (rem + 1 - c) (t.ticks c) < 2 * (rem + 1) := by
  rcases hcharge with hhalted | ⟨m, rfl⟩
  · have hmode : (t.ticks c).mode = .halted := (t.ticks_mode c).trans hhalted
    rw [roundsLeft_halted hmode]
    omega
  · have hpos := hcost m
    have hle := roundsLeft_le (rem + 1 - costIn s.params.cost m) (t.ticks (costIn s.params.cost m))
    omega

/-- The loop returns, or does one round that keeps the parameters and leaves fewer rounds. -/
theorem runLoop_stops_or_rounds {s : State} (hcost : ∀ m, 1 ≤ costIn s.params.cost m) (rem : Nat) :
    (∀ fuel, runLoop fuel rem s = .next s) ∨
    ∃ rem' s', s'.params = s.params ∧ roundsLeft rem' s' < roundsLeft rem s ∧
      ∀ fuel, runLoop (fuel + 1) rem s = runLoop fuel rem' s' := by
  cases hm : s.mode with
  | halted => exact .inl fun fuel => runLoop_stop (.inl hm)
  | waitingForEvent =>
    rw [roundsLeft_waiting hm]
    by_cases hk : s.ev.kind = .none
    · cases rem with
      | zero => exact .inl fun fuel => runLoop_stop (.inr ⟨rfl, fun _ => hk⟩)
      | succ rem =>
        have hle := roundsLeft_le rem s.tick
        exact .inr ⟨rem, s.tick, s.tick_params, by omega, fun fuel => runLoop_tick hm hk fuel rem⟩
    · have hleft := roundsLeft_running s.wakeUp_mode rem
      exact .inr ⟨rem, s.wakeUp, s.wakeUp_params, by omega, fun fuel => runLoop_wakeUp hm hk fuel rem⟩
  | running =>
    cases rem with
    | zero => exact .inl fun fuel => runLoop_stop (.inr ⟨rfl, fun hw => by rw [hm] at hw; cases hw⟩)
    | succ rem =>
      obtain ⟨t, c, hs, hparams, hcharge⟩ := stepInstr_answers s
      rw [roundsLeft_running hm]
      exact .inr ⟨rem + 1 - c, t.ticks c, (t.ticks_params c).trans hparams,
        roundsLeft_stepInstr_lt hcost hcharge rem, fun fuel => runLoop_stepInstr hm hs fuel rem⟩

/-- One round more than enough changes nothing. -/
theorem runLoop_succ_of_roundsLeft_le {fuel rem : Nat} {s : State} (hcost : ∀ m, 1 ≤ costIn s.params.cost m)
    (hfuel : roundsLeft rem s ≤ fuel) : runLoop (fuel + 1) rem s = runLoop fuel rem s := by
  induction fuel generalizing rem s with
  | zero =>
    rcases runLoop_stops_or_rounds hcost rem with hstop | ⟨_, _, -, hlt, -⟩
    · rw [hstop, hstop]
    · omega
  | succ fuel ih =>
    rcases runLoop_stops_or_rounds hcost rem with hstop | ⟨rem', s', hparams, hlt, hround⟩
    · rw [hstop, hstop]
    · rw [hround, hround]
      exact ih (by rwa [hparams]) (by omega)

/-! ## A wake-up at the start of `run` (R147, decision D30) -/

/-- The wake-up needs no budget, and the loop returns after it. -/
theorem run_zero_of_pending {s : State} (hm : s.mode = .waitingForEvent) (hk : s.ev.kind ≠ .none) :
    run 0 s = .next s.wakeUp := by
  have hstop : s.wakeUp.mode = .waitingForEvent → s.wakeUp.ev.kind = .none := fun _ => rfl
  rw [run, runLoop_wakeUp hm hk, runLoop_stop (.inr ⟨rfl, hstop⟩)]

/-- The wake-up takes no budget: `run` goes on as from the woken state. The round it takes is one that the woken,
running core does not need. -/
theorem run_of_pending {s : State} (hm : s.mode = .waitingForEvent) (hk : s.ev.kind ≠ .none)
    (hcost : ∀ m, 1 ≤ costIn s.params.cost m) (n : Nat) : run n s = run n s.wakeUp := by
  have henough : roundsLeft n s.wakeUp ≤ 2 * n + 1 := roundsLeft_le n s.wakeUp
  calc run n s = runLoop (2 * n + 1) n s.wakeUp := runLoop_wakeUp hm hk (2 * n + 1) n
    _ = run n s.wakeUp := (runLoop_succ_of_roundsLeft_le (s := s.wakeUp) hcost henough).symm

end Sys2Proof.Machine
end

section
/-!
PROOFS. Key events (60_exceptions.md R172, R173): the four cases of a key operation, and what the core that waits
for an event does with the one posted.
-/

namespace Sys2Proof.Machine

/-! ## The four cases -/

theorem State.keyDown_of_mem {s : State} {code : Word} (h : code ∈ s.keys) : s.keyDown code = s := by
  rw [State.keyDown, if_pos h]

theorem State.keyDown_of_not_mem {s : State} {code : Word} (h : code ∉ s.keys) :
    s.keyDown code = { s with keys := insertKey code s.keys, ev := ⟨.keyDown, code⟩ } := by
  rw [State.keyDown, if_neg h, State.post]

theorem State.keyUp_of_mem {s : State} {code : Word} (h : code ∈ s.keys) :
    s.keyUp code = { s with keys := s.keys.filter (fun k => k ≠ code), ev := ⟨.keyUp, code⟩ } := by
  rw [State.keyUp, if_pos h, State.post]

theorem State.keyUp_of_not_mem {s : State} {code : Word} (h : code ∉ s.keys) : s.keyUp code = s := by
  rw [State.keyUp, if_neg h]

theorem hostCall_keyDown (s : State) (code : Word) : hostCall (.keyDown code) s = .next (.done, s.keyDown code) := rfl

theorem hostCall_keyUp (s : State) (code : Word) : hostCall (.keyUp code) s = .next (.done, s.keyUp code) := rfl

/-! ## What a key operation that changes the key leaves behind -/

/-- `t` is `s` after the key with code `code` was pressed or released, its event posted. -/
structure KeyChanged (code : Word) (s t : State) : Prop where
  frame : t = { s with keys := t.keys, ev := t.ev }
  pending : t.ev.kind ≠ .none
  payload : t.ev.payload = code

theorem keyChanged_keyDown {s : State} {code : Word} (h : code ∉ s.keys) : KeyChanged code s (s.keyDown code) := by
  rw [State.keyDown_of_not_mem h]
  exact ⟨rfl, nofun, rfl⟩

theorem keyChanged_keyUp {s : State} {code : Word} (h : code ∈ s.keys) : KeyChanged code s (s.keyUp code) := by
  rw [State.keyUp_of_mem h]
  exact ⟨rfl, nofun, rfl⟩

theorem KeyChanged.mode {s t : State} {code : Word} (h : KeyChanged code s t) : t.mode = s.mode := by
  rw [h.frame]

theorem KeyChanged.params {s t : State} {code : Word} (h : KeyChanged code s t) : t.params = s.params := by
  rw [h.frame]

/-- The key's event wakes a waiting core at the next `run` (R147, decision D30). -/
theorem KeyChanged.wakes {s t : State} {code : Word} (h : KeyChanged code s t) (hm : s.mode = .waitingForEvent) :
    ∃ w, run 0 t = .next w ∧ w.mode = .running ∧ w.reg .A = t.ev.kind.code ∧ w.reg .B = code ∧
      w.ev = ⟨.none, 0⟩ ∧ ((∀ m, 1 ≤ costIn s.params.cost m) → ∀ n, run n t = run n w) := by
  have hwait : t.mode = .waitingForEvent := h.mode.trans hm
  refine ⟨t.wakeUp, run_zero_of_pending hwait h.pending, t.wakeUp_mode, ?kind, ?payload, t.wakeUp_ev,
    fun hcost n => ?goesOn⟩
  case kind => simp [State.reg_wakeUp, State.reg_consume]
  case payload => simp [State.reg_wakeUp, State.reg_consume, h.payload]
  case goesOn => exact run_of_pending hwait h.pending (by rwa [h.params]) n

/-! ## The obligation -/

/-- Settles O56: the first half is the four cases; for the second, a key operation that changes the key is followed by
the wake-up `KeyChanged.wakes`. -/
theorem keyEventsFireOnlyOnAChange : Obligations.KeyEventsFireOnlyOnAChange := by
  refine ⟨fun s code => ⟨fun h => ?held, fun h => ?pressed, fun h => ?notHeld, fun h => ?released⟩,
    fun s t code hm hchange => ?wakes⟩
  case held => rw [hostCall_keyDown, State.keyDown_of_mem h]
  case pressed =>
    rw [hostCall_keyDown, State.keyDown_of_not_mem h]
    exact ⟨_, rfl, fun k => (mem_insertKey code s.keys k).trans or_comm, rfl, rfl⟩
  case notHeld => rw [hostCall_keyUp, State.keyUp_of_not_mem h]
  case released =>
    rw [hostCall_keyUp, State.keyUp_of_mem h]
    exact ⟨_, rfl, fun k => by simp, rfl, rfl⟩
  case wakes =>
    rcases hchange with ⟨hup, hcall⟩ | ⟨hdown, hcall⟩
    · cases hcall
      exact (keyChanged_keyDown hup).wakes hm
    · cases hcall
      exact (keyChanged_keyUp hdown).wakes hm

end Sys2Proof.Machine
end

section
/-!
PROOFS. The codec (30_encoding.md): bytes at a position, operands, and what the opcode map says of the encoder, each
once; then decode after encode, encode after decode, and the two illegal-instruction causes.
-/

namespace Sys2Proof

open Machine Claims

/-! ## Bytes at a position -/

/-- The bytes `bs` stand at position `cur` and after it. -/
def BytesAt (rd : Nat → Byte) : Nat → List Byte → Prop
  | _, [] => True
  | cur, b :: bs => rd cur = b ∧ BytesAt rd (cur + 1) bs

section
variable {rd : Nat → Byte} {cur : Nat}

@[simp] theorem bytesAt_nil : BytesAt rd cur [] := trivial

@[simp] theorem bytesAt_cons {b : Byte} {bs : List Byte} :
    BytesAt rd cur (b :: bs) ↔ rd cur = b ∧ BytesAt rd (cur + 1) bs := Iff.rfl

@[simp] theorem bytesAt_append {xs ys : List Byte} :
    BytesAt rd cur (xs ++ ys) ↔ BytesAt rd cur xs ∧ BytesAt rd (cur + xs.length) ys := by
  induction xs generalizing cur with
  | nil => simp
  | cons x xs ih => simp [ih, and_assoc, Nat.add_assoc, Nat.add_comm 1]

theorem bytesAt_iff_getD {bs : List Byte} :
    BytesAt rd cur bs ↔ ∀ k, k < bs.length → rd (cur + k) = bs.getD k 0 := by
  induction bs generalizing cur with
  | nil => simp
  | cons b bs ih =>
    rw [bytesAt_cons, ih, List.length_cons, Nat.forall_lt_succ_left']
    simp [Nat.add_assoc, Nat.add_comm 1]

end

/-! ## Operands (R53) -/

theorem Reg.ofCode_eq_some_iff {c : BitVec 4} {r : Reg} : Reg.ofCode c = some r ↔ r.code = c := by
  refine ⟨fun h => ?code, fun h => ?ofCode⟩
  case ofCode => rw [← h, Reg.ofCode_code]
  case code =>
    unfold Reg.ofCode at h
    split at h
    case h_9 => cases h
    all_goals
      cases h
      exact BitVec.eq_of_toNat_eq (Eq.symm ‹_›)

theorem Reg.ofCode_eq_none_iff : ∀ {c : BitVec 4}, Reg.ofCode c = none ↔ 8 ≤ c.toNat := by decide

@[simp] theorem loByte_wordOfBytes (lo hi : Byte) : loByte (wordOfBytes lo hi) = lo := by
  apply BitVec.eq_of_toNat_eq
  have hlo := lo.isLt
  rw [loByte_toNat, wordOfBytes_toNat]
  omega

@[simp] theorem hiByte_wordOfBytes (lo hi : Byte) : hiByte (wordOfBytes lo hi) = hi := by
  apply BitVec.eq_of_toNat_eq
  have hlo := lo.isLt
  rw [hiByte_toNat, wordOfBytes_toNat]
  omega

/-- The literal codes: 8 to 12 carry 0 to 4, and 15 carries 0xFFFF. -/
theorem isCodeLiteral_iff (v : Word) : isCodeLiteral v = true ↔ v.toNat ≤ 4 ∨ v = 0xFFFF := by
  simp [isCodeLiteral]

/-- The operand a code selects is well formed, has that code, and its immediate is the bytes read (R53, R55). -/
theorem srcAt_spec (rd : Nat → Byte) (c : BitVec 4) (cur : Nat) :
    (srcAt rd c cur).1.wf = true ∧ (srcAt rd c cur).1.code = c ∧
      (srcAt rd c cur).2 = cur + (srcAt rd c cur).1.immLen ∧ BytesAt rd cur (srcAt rd c cur).1.bytes := by
  have hlt := c.isLt
  cases hr : Reg.ofCode c with
  | some r => simp [srcAt, hr, Src.wf, Src.code, Src.immLen, Src.bytes, Reg.ofCode_eq_some_iff.1 hr]
  | none =>
    have hge := Reg.ofCode_eq_none_iff.1 hr
    simp only [srcAt, hr]
    split
    case h_1 h => simp [Src.wf, Src.code, Src.immLen, Src.bytes, BitVec.eq_of_toNat_eq (x := 13#4) h.symm]
    case h_2 h => simp [Src.wf, Src.code, Src.immLen, Src.bytes, BitVec.eq_of_toNat_eq (x := 14#4) h.symm]
    case h_3 h =>
      simp [Src.wf, Src.code, Src.immLen, Src.bytes, isCodeLiteral, BitVec.eq_of_toNat_eq (x := 15#4) h.symm]
    case h_4 h13 h14 h15 =>
      have hv : (BitVec.ofNat 16 (c.toNat - 8)).toNat = c.toNat - 8 := by
        rw [BitVec.toNat_ofNat]
        omega
      have hne : BitVec.ofNat 16 (c.toNat - 8) ≠ 0xFFFF#16 := fun h => by
        rw [h] at hv
        have : (0xFFFF#16).toNat = 65535 := rfl
        omega
      have hcode : BitVec.ofNat 4 (8 + (c.toNat - 8)) = c := by
        rw [Nat.add_sub_cancel' hge, BitVec.ofNat_toNat, BitVec.setWidth_eq]
      have hle : c.toNat - 8 ≤ 4 := by
        have h13 : c.toNat ≠ 13 := h13
        have h14 : c.toNat ≠ 14 := h14
        have h15 : c.toNat ≠ 15 := h15
        omega
      refine ⟨(isCodeLiteral_iff _).2 (.inl (hv.trans_le hle)), ?_, rfl, trivial⟩
      rw [Src.code, if_neg hne, hv, hcode]

/-- A well-formed operand is read back from its code and its immediate bytes (R53, R55). -/
theorem srcAt_code {rd : Nat → Byte} {cur : Nat} {b : Src} (hwf : b.wf = true) (hb : BytesAt rd cur b.bytes) :
    srcAt rd b.code cur = (b, cur + b.immLen) := by
  cases b with
  | reg r => simp [srcAt, Src.code, Src.immLen]
  | imm8 v =>
    simp only [Src.bytes, bytesAt_cons] at hb
    simp [srcAt, Src.code, Src.immLen, hb, Reg.ofCode]
  | imm16 w =>
    simp only [Src.bytes, bytesAt_cons] at hb
    simp [srcAt, Src.code, Src.immLen, hb, Reg.ofCode, wordOfBytes_lo_hi]
  | lit v =>
    rcases (isCodeLiteral_iff v).1 hwf with hv | rfl
    · have hne : v ≠ 0xFFFF#16 := fun h => by simp [h] at hv
      have hcode : (BitVec.ofNat 4 (8 + v.toNat)).toNat = 8 + v.toNat := by
        rw [BitVec.toNat_ofNat]
        omega
      have hr : Reg.ofCode (BitVec.ofNat 4 (8 + v.toNat)) = none := Reg.ofCode_eq_none (by omega)
      simp only [srcAt, Src.code, if_neg hne, hr, hcode]
      split
      case h_4 => simp [Src.immLen]
      all_goals omega
    · rfl


/-! ## The opcode map and the encoder (R52, R56) -/

/-- An instruction with an operand byte, as the encoder writes it: opcode, operand codes, and the bytes after them. -/
structure Spelled (i : Instr) (op : Byte) (ca cb : BitVec 4) (tail : List Byte) (wf : Bool) : Prop where
  encode_eq : encode i = op :: operandByte ca cb :: tail
  wf_eq : i.wf = wf

/-- The encoder writes the instructions of a format with the opcode `op`, the fields as R52 lists them, and an unused
field as 0. -/
def Layout.Encodes (op : Byte) : Layout → Prop
  | .f0 i => encode i = [op] ∧ i.wf = true
  | .f2 mk | .fl mk => ∀ a b, Spelled (mk a b) op a.code b.code b.bytes b.wf
  | .f1a mk => ∀ a, Spelled (mk a) op a.code 0 [] true ∧ unusedB (mk a) = true
  | .f1b mk => ∀ b, Spelled (mk b) op 0 b.code b.bytes b.wf ∧ unusedA (mk b) = true
  | .fj mk | .fs mk | .fd mk => ∀ a b, Spelled (mk a b) op a.code b.code (a.bytes ++ b.bytes) (a.wf && b.wf)
  | .fl8 mk => ∀ a b f, Spelled (mk a b f) op a.code b.code (b.bytes ++ [f]) b.wf
  | .fl16 mk => ∀ a b f, Spelled (mk a b f) op a.code b.code (b.bytes ++ [loByte f, hiByte f]) b.wf
  | .fs8 mk => ∀ a b f, Spelled (mk a b f) op a.code b.code (a.bytes ++ b.bytes ++ [f]) (a.wf && b.wf)
  | .fs16 mk => ∀ a b f,
      Spelled (mk a b f) op a.code b.code (a.bytes ++ b.bytes ++ [loByte f, hiByte f]) (a.wf && b.wf)

/-- `i` is an instruction of the format. -/
def Layout.Builds (i : Instr) : Layout → Prop
  | .f0 j => i = j
  | .f2 mk | .fl mk => ∃ a b, i = mk a b
  | .f1a mk => ∃ a, i = mk a
  | .f1b mk => ∃ b, i = mk b
  | .fj mk | .fs mk | .fd mk => ∃ a b, i = mk a b
  | .fl8 mk => ∃ a b f, i = mk a b f
  | .fl16 mk => ∃ a b f, i = mk a b f
  | .fs8 mk => ∃ a b f, i = mk a b f
  | .fs16 mk => ∃ a b f, i = mk a b f

theorem mem_opcodeMap_of_layoutOf {op : Byte} {l : Layout} (h : layoutOf op = some l) : (op, l) ∈ opcodeMap := by
  obtain ⟨xs, ys, hmap, -⟩ := List.lookup_eq_some_iff.1 h
  rw [hmap]
  exact List.mem_append_right xs List.mem_cons_self

/-- The decoder's table and the encoder list the same opcodes for the same instructions (R56): for each of the 41 entries
both sides are the same by definition, whatever the fields are. -/
theorem encodes_of_mem_opcodeMap : ∀ p ∈ opcodeMap, p.2.Encodes p.1 := by
  simp only [opcodeMap, opcodesNoOperand, opcodesAlu, opcodesOneOperand, opcodesMemory, opcodesJump, opcodesDisk,
    List.cons_append, List.nil_append, List.forall_mem_cons, List.not_mem_nil, false_imp_iff, implies_true,
    Layout.Encodes]
  repeat' first
    | constructor
    | intro _

/-- Every instruction belongs to a format, under the opcode the encoder writes (R56). -/
theorem exists_layout (i : Instr) : ∃ l, layoutOf ((encode i).getD 0 0) = some l ∧ l.Builds i := by
  cases i with
  | nop | ret | halt | wait | poll => exact ⟨_, rfl, rfl⟩
  | not | neg | pop | push | jmp | call => exact ⟨_, rfl, _, rfl⟩
  | add | sub | xor | and | or | shl | shr | cmp | load | loadw | store | storew
  | jez | jnz | jl | jg | jle | jge | read0 | read1 | write0 | write1 => exact ⟨_, rfl, _, _, rfl⟩
  | loadOff8 | loadOff16 | loadwOff8 | loadwOff16 | storeOff8 | storeOff16 | storewOff8 | storewOff16 =>
    exact ⟨_, rfl, _, _, _, rfl⟩

/-! ## Decode after encode -/

/-- Both operands are read back, one after the other (R55). -/
theorem srcPairAt_codes {rd : Nat → Byte} {a b : Src} (hwf : (a.wf && b.wf) = true)
    (hb : BytesAt rd 2 (a.bytes ++ b.bytes)) :
    srcPairAt rd (operandByte a.code b.code) = (a, b, 2 + a.immLen + b.immLen) := by
  obtain ⟨ha, hb'⟩ := bytesAt_append.1 hb
  obtain ⟨hwa, hwb⟩ := Bool.and_eq_true_iff.1 hwf
  rw [Src.bytes_length] at hb'
  simp [srcPairAt, srcAt_code hwa ha, srcAt_code hwb hb']

/-- What stands in memory where the encoder's bytes stand, and how many they are. -/
theorem Spelled.bytesAt {rd : Nat → Byte} {i : Instr} {op : Byte} {ca cb : BitVec 4} {tail : List Byte} {wf : Bool}
    (h : Spelled i op ca cb tail wf) (hb : BytesAt rd 0 (encode i)) :
    rd 0 = op ∧ rd 1 = operandByte ca cb ∧ BytesAt rd 2 tail ∧ (encode i).length = 2 + tail.length := by
  rw [h.encode_eq] at hb ⊢
  obtain ⟨h0, h1, ht⟩ := hb
  exact ⟨h0, h1, ht, Nat.add_comm _ 2⟩

/-- In each format the fields are read back from where the encoder put them (R52, R55). -/
theorem decodeLayout_of_builds {rd : Nat → Byte} {i : Instr} {op : Byte} {l : Layout} (henc : l.Encodes op)
    (hi : l.Builds i) (hwf : i.wf = true) (hb : BytesAt rd 0 (encode i)) :
    rd 0 = op ∧ decodeLayout rd (rd 1) l = .ok (i, (encode i).length) := by
  cases l with
  | f0 j =>
    cases hi
    rw [henc.1] at hb ⊢
    exact ⟨hb.1, rfl⟩
  | f1a mk =>
    obtain ⟨a, rfl⟩ := hi
    obtain ⟨h0, h1, -, hlen⟩ := (henc a).1.bytesAt hb
    simp [h0, h1, hlen, decodeLayout, withDest]
  | f1b mk =>
    obtain ⟨b, rfl⟩ := hi
    obtain ⟨h0, h1, ht, hlen⟩ := (henc b).1.bytesAt hb
    rw [(henc b).1.wf_eq] at hwf
    simp [h0, h1, hlen, decodeLayout, srcAt_code hwf ht]
  | f2 mk | fl mk =>
    obtain ⟨a, b, rfl⟩ := hi
    obtain ⟨h0, h1, ht, hlen⟩ := (henc a b).bytesAt hb
    rw [(henc a b).wf_eq] at hwf
    simp [h0, h1, hlen, decodeLayout, withDest, srcAt_code hwf ht]
  | fl8 mk | fl16 mk =>
    obtain ⟨a, b, f, rfl⟩ := hi
    obtain ⟨h0, h1, ht, hlen⟩ := (henc a b f).bytesAt hb
    rw [(henc a b f).wf_eq] at hwf
    obtain ⟨ht, hoff⟩ := bytesAt_append.1 ht
    simp only [Src.bytes_length, bytesAt_cons, bytesAt_nil, and_true, Nat.add_assoc] at hoff
    simp [h0, h1, hlen, decodeLayout, withDest, srcAt_code hwf ht, hoff, wordOfBytes_lo_hi, Nat.add_assoc]
  | fj mk | fs mk | fd mk =>
    obtain ⟨a, b, rfl⟩ := hi
    obtain ⟨h0, h1, ht, hlen⟩ := (henc a b).bytesAt hb
    rw [(henc a b).wf_eq] at hwf
    simp [h0, h1, hlen, decodeLayout, srcPairAt_codes hwf ht, Nat.add_assoc]
  | fs8 mk | fs16 mk =>
    obtain ⟨a, b, f, rfl⟩ := hi
    obtain ⟨h0, h1, ht, hlen⟩ := (henc a b f).bytesAt hb
    rw [(henc a b f).wf_eq] at hwf
    obtain ⟨ht, hoff⟩ := bytesAt_append.1 ht
    simp only [List.length_append, Src.bytes_length, bytesAt_cons, bytesAt_nil, and_true, Nat.add_assoc] at hoff
    simp [h0, h1, hlen, decodeLayout, srcPairAt_codes hwf ht, hoff, wordOfBytes_lo_hi, Nat.add_assoc]

theorem decode_of_bytesAt_encode {rd : Nat → Byte} {i : Instr} (hwf : i.wf = true) (hb : BytesAt rd 0 (encode i)) :
    decode rd = .ok (i, (encode i).length) := by
  obtain ⟨l, hl, hi⟩ := exists_layout i
  have henc := encodes_of_mem_opcodeMap _ (mem_opcodeMap_of_layoutOf hl)
  obtain ⟨h0, hdec⟩ := decodeLayout_of_builds henc hi hwf hb
  simp only [decode, h0, hl, hdec]

/-- Settles O1: the bytes are where the encoder put them, and each format reads them back. -/
theorem decodeInvertsEncode : Obligations.DecodeInvertsEncode := fun i rd hwf hb =>
  decode_of_bytesAt_encode hwf (bytesAt_iff_getD.2 (by simpa using hb))

/-! ## Encode after decode -/

/-- The bytes read are those the encoder writes for `i`, but for an unused field of the operand byte (R60). -/
structure Reads (rd : Nat → Byte) (i : Instr) (n : Nat) : Prop where
  wf : i.wf = true
  length_eq : n = (encode i).length
  bytes : encode i = [rd 0] ∨ ∃ ca cb tail, encode i = rd 0 :: operandByte ca cb :: tail ∧ BytesAt rd 2 tail ∧
    (unusedA i = false → ca = codeA (rd 1)) ∧ (unusedB i = false → cb = codeB (rd 1))

theorem Spelled.reads {rd : Nat → Byte} {i : Instr} {ca cb : BitVec 4} {tail : List Byte} {wf : Bool} {n : Nat}
    (h : Spelled i (rd 0) ca cb tail wf) (hwf : wf = true) (hn : n = 2 + tail.length) (ht : BytesAt rd 2 tail)
    (ha : unusedA i = false → ca = codeA (rd 1)) (hb : unusedB i = false → cb = codeB (rd 1)) : Reads rd i n where
  wf := h.wf_eq.trans hwf
  length_eq := by rw [h.encode_eq, hn]; exact Nat.add_comm 2 _
  bytes := .inr ⟨ca, cb, tail, h.encode_eq, ht, ha, hb⟩

theorem withDest_eq_ok {ob : Byte} {k : Reg → Instr × Nat} {p : Instr × Nat} (h : withDest ob k = .ok p) :
    ∃ a, a.code = codeA ob ∧ p = k a := by
  unfold withDest at h
  split at h
  case h_1 a ha => cases h; exact ⟨a, Reg.ofCode_eq_some_iff.1 ha, rfl⟩
  case h_2 => cases h

/-- Both operands of a pair are well formed, have the codes read, and their immediates stand one after the other. -/
theorem srcPairAt_spec (rd : Nat → Byte) (ob : Byte) :
    ∃ a b, srcPairAt rd ob = (a, b, 2 + a.immLen + b.immLen) ∧ (a.wf && b.wf) = true ∧
      a.code = codeA ob ∧ b.code = codeB ob ∧ BytesAt rd 2 (a.bytes ++ b.bytes) := by
  obtain ⟨hwa, hca, hna, hba⟩ := srcAt_spec rd (codeA ob) 2
  obtain ⟨hwb, hcb, hnb, hbb⟩ := srcAt_spec rd (codeB ob) (srcAt rd (codeA ob) 2).2
  refine ⟨_, _, ?_, Bool.and_eq_true_iff.2 ⟨hwa, hwb⟩, hca, hcb, bytesAt_append.2 ⟨hba, ?_⟩⟩
  · rw [srcPairAt, hnb, hna]
  · rwa [Src.bytes_length, ← hna]

/-- The fields a format decodes to are the ones the encoder writes back (R52, R55). -/
theorem reads_of_decodeLayout {rd : Nat → Byte} {i : Instr} {n : Nat} {l : Layout} (henc : l.Encodes (rd 0))
    (h : decodeLayout rd (rd 1) l = .ok (i, n)) : Reads rd i n := by
  cases l with
  | f0 j =>
    cases h
    exact ⟨henc.2, by rw [henc.1]; rfl, .inl henc.1⟩
  | f1a mk =>
    obtain ⟨a, ha, hp⟩ := withDest_eq_ok h
    cases hp
    obtain ⟨hs, hunused⟩ := henc a
    exact hs.reads rfl rfl trivial (fun _ => ha) (fun hu => by simp [hunused] at hu)
  | f1b mk =>
    cases h
    obtain ⟨hwf, hcode, hnext, hbytes⟩ := srcAt_spec rd (codeB (rd 1)) 2
    obtain ⟨hs, hunused⟩ := henc (srcAt rd (codeB (rd 1)) 2).1
    exact hs.reads hwf (by simp [hnext]) hbytes (fun hu => by simp [hunused] at hu) (fun _ => hcode)
  | f2 mk | fl mk =>
    obtain ⟨a, ha, hp⟩ := withDest_eq_ok h
    cases hp
    obtain ⟨hwf, hcode, hnext, hbytes⟩ := srcAt_spec rd (codeB (rd 1)) 2
    exact (henc a _).reads hwf (by simp [hnext]) hbytes (fun _ => ha) (fun _ => hcode)
  | fl8 mk | fl16 mk =>
    obtain ⟨a, ha, hp⟩ := withDest_eq_ok h
    cases hp
    obtain ⟨hwf, hcode, hnext, hbytes⟩ := srcAt_spec rd (codeB (rd 1)) 2
    exact (henc a _ _).reads hwf (by simp [hnext, Nat.add_assoc])
      (bytesAt_append.2 ⟨hbytes, by simp [hnext]⟩) (fun _ => ha) (fun _ => hcode)
  | fj mk | fs mk | fd mk =>
    obtain ⟨a, b, hp, hwf, hca, hcb, hbytes⟩ := srcPairAt_spec rd (rd 1)
    simp only [decodeLayout, hp] at h
    cases h
    exact (henc a b).reads hwf (by simp [Nat.add_assoc]) hbytes (fun _ => hca) (fun _ => hcb)
  | fs8 mk | fs16 mk =>
    obtain ⟨a, b, hp, hwf, hca, hcb, hbytes⟩ := srcPairAt_spec rd (rd 1)
    simp only [decodeLayout, hp] at h
    cases h
    exact (henc a b _).reads hwf (by simp [Nat.add_assoc])
      (bytesAt_append.2 ⟨hbytes, by simp [Nat.add_assoc]⟩) (fun _ => hca) (fun _ => hcb)

theorem reads_of_decode {rd : Nat → Byte} {i : Instr} {n : Nat} (h : decode rd = .ok (i, n)) : Reads rd i n := by
  unfold decode at h
  split at h
  case h_1 => cases h
  case h_2 l hl => exact reads_of_decodeLayout (encodes_of_mem_opcodeMap _ (mem_opcodeMap_of_layoutOf hl)) h

/-- The laws of every constructor, put together (R50, R52). -/
theorem encodedLength (i : Instr) : Laws.EncodedLength.Statement i := by
  open Laws in
  cases i
  exacts [EncodedLength.nop, EncodedLength.ret, EncodedLength.halt, EncodedLength.wait, EncodedLength.poll,
    EncodedLength.add _ _, EncodedLength.sub _ _, EncodedLength.xor _ _, EncodedLength.and _ _, EncodedLength.or _ _,
    EncodedLength.shl _ _, EncodedLength.shr _ _, EncodedLength.cmp _ _, EncodedLength.not _, EncodedLength.neg _,
    EncodedLength.pop _, EncodedLength.push _, EncodedLength.jmp _, EncodedLength.call _, EncodedLength.load _ _,
    EncodedLength.loadOff8 _ _ _, EncodedLength.loadOff16 _ _ _, EncodedLength.loadw _ _,
    EncodedLength.loadwOff8 _ _ _, EncodedLength.loadwOff16 _ _ _, EncodedLength.store _ _,
    EncodedLength.storeOff8 _ _ _, EncodedLength.storeOff16 _ _ _, EncodedLength.storew _ _,
    EncodedLength.storewOff8 _ _ _, EncodedLength.storewOff16 _ _ _, EncodedLength.jez _ _, EncodedLength.jnz _ _,
    EncodedLength.jl _ _, EncodedLength.jg _ _, EncodedLength.jle _ _, EncodedLength.jge _ _,
    EncodedLength.read0 _ _, EncodedLength.read1 _ _, EncodedLength.write0 _ _, EncodedLength.write1 _ _]

/-- Settles O2: the instruction is spelled by its bytes, and the encoder writes as many as the length column says. -/
theorem decodeGivesWellFormedOfItsLength : Obligations.DecodeGivesWellFormedOfItsLength := by
  intro rd i n h
  obtain ⟨hwf, rfl, -⟩ := reads_of_decode h
  obtain ⟨hlen, hpos, hle⟩ := encodedLength i
  rw [hlen]
  exact ⟨hwf, rfl, hpos, hle⟩

/-- Settles O3: byte 0 and the bytes after the operand byte are the encoder's; the operand byte holds the encoder's
codes in the fields that are used. -/
theorem decodedBytesAreTheEncoding : Obligations.DecodedBytesAreTheEncoding := by
  intro rd i n h
  obtain ⟨-, rfl, henc | ⟨ca, cb, tail, henc, hbytes, ha, hb⟩⟩ := reads_of_decode h
  · rw [henc]
    refine ⟨fun k hk _ => ?_, fun h2 => ?_, fun h2 => ?_⟩
    · obtain rfl : k = 0 := by simpa using hk
      rfl
    · simp at h2
    · simp at h2
  · rw [henc]
    refine ⟨fun k hk hne => ?bytes, fun _ hu => ?codeA, fun _ hu => ?codeB⟩
    case codeA => simp [ha hu]
    case codeB => simp [hb hu]
    case bytes =>
      match k, hne with
      | 0, _ => rfl
      | k + 2, _ =>
        have := bytesAt_iff_getD.1 hbytes k (by simpa using hk)
        simpa [Nat.add_comm 2] using this

/-! ## The two illegal-instruction causes (R58, R59) -/

theorem badDestination_iff (rd : Nat → Byte) : BadDestination rd ↔ Reg.ofCode (codeA (rd 1)) = none := by
  refine ⟨fun h => Reg.ofCode_eq_none (codeA_ge_of_badDestination h), fun h => ?_⟩
  have hge := Reg.ofCode_eq_none_iff.1 h
  have hlt := (rd 1).isLt
  rw [codeA, BitVec.toNat_ofNat] at hge
  have hmsb : (rd 1).msb = true := BitVec.msb_eq_true_iff_two_mul_ge.2 (by omega)
  exact hmsb

theorem withDest_eq_error {ob : Byte} {k : Reg → Instr × Nat} {c : IllegalCause} (h : withDest ob k = .error c) :
    Reg.ofCode (codeA ob) = none ∧ c = .illegalDestination := by
  unfold withDest at h
  split at h
  case h_1 => cases h
  case h_2 hnone => cases h; exact ⟨hnone, rfl⟩

/-- Once the opcode is known, only a destination field can be illegal. -/
theorem decodeLayout_eq_error {rd : Nat → Byte} {ob : Byte} {l : Layout} {c : IllegalCause}
    (h : decodeLayout rd ob l = .error c) :
    l.hasDest = true ∧ Reg.ofCode (codeA ob) = none ∧ c = .illegalDestination := by
  cases l with
  | f2 | f1a | fl | fl8 | fl16 => exact ⟨rfl, withDest_eq_error h⟩
  | f0 | f1b | fj | fs | fs8 | fs16 | fd => cases h

/-- Everything a refusal of the decoder can mean. -/
theorem decode_eq_error {rd : Nat → Byte} {c : IllegalCause} (h : decode rd = .error c) :
    (layoutOf (rd 0) = none ∧ c = .illegalOpcode) ∨
    ∃ l, layoutOf (rd 0) = some l ∧ l.hasDest = true ∧ BadDestination rd ∧ c = .illegalDestination := by
  unfold decode at h
  split at h
  case h_1 hnone => cases h; exact .inl ⟨hnone, rfl⟩
  case h_2 l hl =>
    obtain ⟨hdest, hnone, hc⟩ := decodeLayout_eq_error h
    exact .inr ⟨l, hl, hdest, (badDestination_iff rd).2 hnone, hc⟩

theorem decode_of_layoutOf_none {rd : Nat → Byte} (h : layoutOf (rd 0) = none) :
    decode rd = .error .illegalOpcode := by
  simp only [decode, h]

/-- The map lists the opcodes of R56. -/
theorem layoutOf_eq_none_iff_listedOpcodes (op : Byte) : layoutOf op = none ↔ op ∉ listedOpcodes :=
  layoutOf_eq_none_iff op

/-- The opcodes of the map whose format has a destination are those of R58. -/
theorem destinationOpcodes_eq : (opcodeMap.filter fun p => p.2.hasDest).map Prod.fst = destinationOpcodes := rfl

theorem mem_destinationOpcodes {op : Byte} {l : Layout} (h : layoutOf op = some l) (hdest : l.hasDest = true) :
    op ∈ destinationOpcodes := by
  rw [← destinationOpcodes_eq]
  exact List.mem_map_of_mem (f := Prod.fst) (List.mem_filter.2 ⟨mem_opcodeMap_of_layoutOf h, hdest⟩)

/-- Settles O4: the only other refusal has another cause. -/
theorem unlistedOpcodesAreIllegal : Obligations.UnlistedOpcodesAreIllegal := by
  intro rd
  rw [← layoutOf_eq_none_iff_listedOpcodes]
  refine ⟨fun h => ?_, decode_of_layoutOf_none⟩
  rcases decode_eq_error h with ⟨hnone, -⟩ | ⟨_, _, _, _, hc⟩
  · exact hnone
  · cases hc

/-- Settles O5: the check of R58 is made in the formats with a destination, whose opcodes are those of R58. -/
theorem destinationCodesAboveSevenAreIllegal : Obligations.DestinationCodesAboveSevenAreIllegal := by
  intro rd
  refine ⟨fun h => ?_, fun ⟨hop, hbad⟩ => decode_of_badDestination hop (by decide) hbad⟩
  rcases decode_eq_error h with ⟨-, hc⟩ | ⟨l, hl, hdest, hbad, -⟩
  · cases hc
  · exact ⟨mem_destinationOpcodes hl hdest, hbad⟩

/-- Settles O6: the decoder, run on each word. -/
theorem sampleWordsDecodeAsWritten : Obligations.SampleWordsDecodeAsWritten :=
  ⟨rfl, rfl, rfl, rfl, rfl, rfl, rfl, rfl⟩

/-! ## The operand of a value (R65) -/

/-- The values an operand code carries by itself take no immediate byte. -/
theorem Src.ofValue_of_isCodeLiteral {v : Word} (h : isCodeLiteral v = true) : Src.ofValue v = .lit v := by
  rcases (isCodeLiteral_iff v).1 h with hv | rfl
  · rw [Src.ofValue, if_pos hv]
  · rfl

theorem Src.ofValue_of_not_isCodeLiteral {v : Word} (h : isCodeLiteral v = false) :
    Src.ofValue v = if v.toNat ≤ 255 then .imm8 (BitVec.ofNat 8 v.toNat) else .imm16 v := by
  obtain ⟨hv, hne⟩ : ¬ v.toNat ≤ 4 ∧ v ≠ 0xFFFF#16 := by simpa [isCodeLiteral] using h
  rw [Src.ofValue, if_neg hv, if_neg hne]

theorem zext16_ofNat {v : Word} (h : v.toNat ≤ 255) : zext16 (BitVec.ofNat 8 v.toNat) = v := by
  apply BitVec.eq_of_toNat_eq
  rw [zext16, BitVec.toNat_setWidth, BitVec.toNat_ofNat]
  omega

/-- Settles O7: a value that a code carries takes no byte; another one cannot be a literal, and a value above 0xFF
cannot be a zero-extended byte. -/
theorem operandOfAValueIsTheShortest : Obligations.OperandOfAValueIsTheShortest := by
  intro v s
  by_cases hlit : isCodeLiteral v = true
  · rw [Src.ofValue_of_isCodeLiteral hlit]
    exact ⟨hlit, rfl, fun b _ _ _ => Nat.zero_le _⟩
  · rw [Src.ofValue_of_not_isCodeLiteral (by simpa using hlit)]
    by_cases hv : v.toNat ≤ 255
    · rw [if_pos hv]
      refine ⟨rfl, zext16_ofNat hv, fun b hwf hreg hval => ?_⟩
      cases b with
      | reg r => exact absurd rfl (hreg r)
      | lit w => cases hval; exact absurd hwf hlit
      | imm8 | imm16 => simp [Src.immLen]
    · rw [if_neg hv]
      refine ⟨rfl, rfl, fun b hwf hreg hval => ?_⟩
      cases b with
      | reg r => exact absurd rfl (hreg r)
      | lit w => cases hval; exact absurd hwf hlit
      | imm8 w =>
        have hw := w.isLt
        have : v.toNat = w.toNat := by
          rw [← hval, State.val, zext16, BitVec.toNat_setWidth]
          omega
        omega
      | imm16 => exact Nat.le_refl _

end Sys2Proof
end

section
/-!
PROOFS. Instructions one by one: shifts and `cmp` (41_alu.md R86 to R88), transfers of control
(42_stack_and_control_transfer.md R103 to R111) and memory access (43_memory_access.md R121 to R124). One equation per
instruction, one rule per shared operation, and then the obligations, those on two instructions in a row included.
-/

namespace Sys2Proof.Machine

open Claims

/-! ## Shifts (R86, R87) -/

theorem shiftLeft_eq (x n : Word) : shiftLeft x n = x <<< n.toNat := by
  unfold shiftLeft
  split
  · apply BitVec.eq_of_toNat_eq
    rw [BitVec.toNat_ofNat, BitVec.toNat_shiftLeft, Nat.shiftLeft_eq]
  · rw [BitVec.shiftLeft_eq_zero (by omega)]

theorem shiftRight_eq (x n : Word) : shiftRight x n = x >>> n.toNat := by
  unfold shiftRight
  split
  · apply BitVec.eq_of_toNat_eq
    have hlt : x.toNat / 2 ^ n.toNat < 2 ^ 16 := (Nat.div_le_self _ _).trans_lt x.isLt
    rw [BitVec.toNat_ofNat, BitVec.toNat_ushiftRight, Nat.shiftRight_eq_div_pow, Nat.mod_eq_of_lt hlt]
  · rw [BitVec.ushiftRight_eq_zero (by omega)]

theorem exec_shl (a : Reg) (b : Src) (s : State) :
    exec (.shl a b) s = .next (s.setReg a (s.reg a <<< (s.val b).toNat)) := by
  rw [← shiftLeft_eq]
  rfl

theorem exec_shr (a : Reg) (b : Src) (s : State) :
    exec (.shr a b) s = .next (s.setReg a (s.reg a >>> (s.val b).toNat)) := by
  rw [← shiftRight_eq]
  rfl

/-- Settles O21: each is one register write, and the library's rule for each shift gives its bits. -/
theorem shiftsAreLogicalAndUnreduced : Obligations.ShiftsAreLogicalAndUnreduced := by
  refine ⟨fun a b s => ⟨_, exec_shl a b s, fun k hk => ?shl, rfl, s.frame_setReg a _⟩,
    fun a b s => ⟨_, exec_shr a b s, fun k hk => ?shr, rfl, s.frame_setReg a _⟩⟩
  case shl =>
    rw [State.reg_setReg_same, BitVec.getLsbD_shiftLeft, decide_eq_true hk, Bool.true_and, ← decide_not]
    simp only [Nat.not_lt]
  case shr => rw [State.reg_setReg_same, BitVec.getLsbD_ushiftRight, Nat.add_comm]

/-! ## `cmp` (R88) -/

/-- The signed reading of a word is the library's two's complement (00_scope.md R7). -/
theorem signed_eq_toInt (v : Word) : signed v = v.toInt := by
  rw [signed, BitVec.toInt_eq_toNat_cond]
  split <;> split <;> omega

/-- The result of `cmp` is an exact three-way answer. -/
theorem compareResult_spec (x y : Word) :
    (compareResult x y = 0x0001#16 ↔ x.toInt > y.toInt) ∧ (compareResult x y = 0x0000#16 ↔ x.toInt = y.toInt) ∧
    (compareResult x y = 0xFFFF#16 ↔ x.toInt < y.toInt) := by
  unfold compareResult
  rw [signed_eq_toInt, signed_eq_toInt]
  rcases lt_trichotomy x.toInt y.toInt with h | h | h
  · simp [h, h.ne, h.not_gt]
  · simp [h]
  · simp [h, h.ne', h.le]

theorem exec_cmp (a : Reg) (b : Src) (s : State) :
    exec (.cmp a b) s = .next (s.setReg a (compareResult (s.reg a) (s.val b))) := rfl

/-- Settles O22: `cmp` is one register write, of `compareResult`. -/
theorem cmpIsTheSignedOrder : Obligations.CmpIsTheSignedOrder := by
  refine fun a b s => ⟨_, exec_cmp a b s, ?order, rfl, s.frame_setReg a _⟩
  rw [State.reg_setReg_same]
  exact compareResult_spec _ _

/-! ## Jumps and calls (R103 to R111) -/

theorem exec_jmp (b : Src) (s : State) : exec (.jmp b) s = .next (s.setIp (s.val b)) := rfl

theorem exec_call (b : Src) (s : State) : exec (.call b) s = .next ((s.pushWord s.ip).setIp (s.val b)) := rfl

section
variable (a b : Src) (s : State)

theorem exec_jez : exec (.jez a b) s = .next (s.setIp (if s.val a = 0x0000#16 then s.val b else s.ip)) := by
  simp [exec, execJez, State.jumpIf_eq, isZero]

theorem exec_jnz : exec (.jnz a b) s = .next (s.setIp (if s.val a = 0x0000#16 then s.ip else s.val b)) := by
  simp [exec, execJnz, State.jumpIf_eq, isNonZero]

theorem exec_jl : exec (.jl a b) s = .next (s.setIp (if s.val a = 0xFFFF#16 then s.val b else s.ip)) := by
  simp [exec, execJl, State.jumpIf_eq, isLess]

theorem exec_jg : exec (.jg a b) s = .next (s.setIp (if s.val a = 0x0001#16 then s.val b else s.ip)) := by
  simp [exec, execJg, State.jumpIf_eq, isGreater]

theorem exec_jle : exec (.jle a b) s =
    .next (s.setIp (if s.val a = 0xFFFF#16 ∨ s.val a = 0x0000#16 then s.val b else s.ip)) := by
  simp [exec, execJle, State.jumpIf_eq, isLessOrEqual]

theorem exec_jge : exec (.jge a b) s =
    .next (s.setIp (if s.val a = 0x0001#16 ∨ s.val a = 0x0000#16 then s.val b else s.ip)) := by
  simp [exec, execJge, State.jumpIf_eq, isGreaterOrEqual]

end

/-- 0x24 is the opcode byte of `jmp` (R56). -/
theorem layoutOf_jmp : layoutOf 0x24 = some (.f1b .jmp) := rfl

/-- 0x25 is the opcode byte of `call` (R56). -/
theorem layoutOf_call : layoutOf 0x25 = some (.f1b .call) := rfl

/-- Settles O26: `jmp` moves `ip`; `call` is a push of `ip` and then moves it. -/
theorem jmpAndCallTransferControl : Obligations.JmpAndCallTransferControl := by
  refine ⟨fun b s => ⟨_, exec_jmp b s, rfl, s.frame_setIp _⟩,
    fun b s => ⟨_, exec_call b s, rfl, ?low, ?high, ?lowered, (s.frame_pushWord s.ip).trans (State.frame_setIp _ _)⟩,
    fun rd => ⟨fun hop => decode_of_layoutOf_f1b (by rw [hop, layoutOf_jmp]),
      fun hop => decode_of_layoutOf_f1b (by rw [hop, layoutOf_call])⟩⟩
  case low => rw [State.setIp_readByte, State.readByte_pushWord_low, loByte_toNat]
  case high => rw [State.setIp_readByte, State.readByte_pushWord_high, hiByte_toNat]
  case lowered => rw [State.setIp_reg, State.reg_pushWord, if_pos rfl]

/-- Settles O27: each jump moves `ip` and does nothing else. -/
theorem conditionalJumpsTestExactValues : Obligations.ConditionalJumpsTestExactValues := fun a b s =>
  ⟨⟨_, exec_jez a b s, s.frame_setIp _, rfl⟩, ⟨_, exec_jnz a b s, s.frame_setIp _, rfl⟩,
    ⟨_, exec_jl a b s, s.frame_setIp _, rfl⟩, ⟨_, exec_jg a b s, s.frame_setIp _, rfl⟩,
    ⟨_, exec_jle a b s, s.frame_setIp _, rfl⟩, ⟨_, exec_jge a b s, s.frame_setIp _, rfl⟩⟩

/-- Settles O30: the value tested is the result of `cmp`, and the exact value that each jump tests for stands for one
order of the operands. -/
theorem jumpsAfterCmpFollowTheSignedOrder : Obligations.JumpsAfterCmpFollowTheSignedOrder := by
  intro a b target s t x hcmp
  have ht : t.reg a = compareResult (s.reg a) (s.val b) := by
    rw [exec_cmp] at hcmp
    cases hcmp
    rw [State.reg_setReg_same]
  have htest : (t.setIp x).val (.reg a) = compareResult (s.reg a) (s.val b) := ht
  obtain ⟨hgt, heq, hlt⟩ := compareResult_spec (s.reg a) (s.val b)
  refine ⟨⟨_, exec_jl _ _ _, ?jl⟩, ⟨_, exec_jg _ _ _, ?jg⟩, ⟨_, exec_jle _ _ _, ?jle⟩, ⟨_, exec_jge _ _ _, ?jge⟩,
    ⟨_, exec_jez _ _ _, ?jez⟩, ⟨_, exec_jnz _ _ _, ?jnz⟩⟩
  all_goals simp only [State.setIp_ip, State.setIp_val, htest, hgt, heq, hlt, ge_iff_le, le_iff_lt_or_eq, gt_iff_lt]
  case jge => simp only [eq_comm]

/-! ## The stack, there and back (R101, R104) -/

/-- The word above S after a push is the pushed one. -/
theorem State.readWord_pushWord (s : State) (v : Word) : (s.pushWord v).readWord (s.reg .S) = v := by
  rw [State.pushWord, State.setReg_readWord, State.readWord_writeWord]

/-- Raising the stack undoes what a push did to S. -/
theorem State.pushWord_reg_S_add (s : State) (v : Word) : (s.pushWord v).reg .S + 2 = s.reg .S := by
  rw [State.reg_pushWord, if_pos rfl, BitVec.sub_add_cancel]

/-- Settles O28: the pop reads where the push wrote, and raises S to where it was. -/
theorem pushThenPopRoundTrips : Obligations.PushThenPopRoundTrips := by
  intro b r s x
  refine ⟨_, _, exec_push b s, exec_pop r _, ?value, fun hr => ?stack, ?frame⟩
  case value =>
    have hread := s.readWord_pushWord (s.val b)
    rw [State.reg_setReg_same, State.setIp_reg, State.pushWord_reg_S_add]
    exact hread
  case stack =>
    rw [State.reg_setReg_other _ _ hr.symm, State.reg_raiseStack, if_pos rfl, State.setIp_reg, State.pushWord_reg_S_add]
  case frame =>
    intro r' hr'
    have hne : r' ≠ r := List.ne_of_not_mem_cons hr'
    have hS : r' ≠ .S := List.ne_of_not_mem_cons (List.not_mem_of_not_mem_cons hr')
    rw [State.reg_setReg_other _ _ hne, State.reg_raiseStack, if_neg hS, State.setIp_reg, State.reg_pushWord, if_neg hS]

/-- Settles O29: the return reads where the call wrote `ip`, and raises S to where it was. -/
theorem callThenRetReturns : Obligations.CallThenRetReturns := by
  intro b s x
  refine ⟨_, _, exec_call b s, rfl, exec_ret _, ?ip, ?regs⟩
  case ip =>
    have hread := s.readWord_pushWord s.ip
    rw [State.setIp_ip, State.setIp_reg, State.setIp_reg, State.pushWord_reg_S_add]
    exact hread
  case regs =>
    intro r _
    rw [State.setIp_reg, State.reg_raiseStack]
    by_cases hr : r = .S
    · rw [if_pos hr, hr, State.setIp_reg, State.setIp_reg, State.pushWord_reg_S_add]
    · rw [if_neg hr, State.setIp_reg, State.setIp_reg, State.reg_pushWord, if_neg hr]

/-! ## Loads and stores (R120 to R124) -/

@[simp] theorem zext16_toNat (b : Byte) : (zext16 b).toNat = b.toNat :=
  BitVec.toNat_setWidth_of_le (by decide)

/-- The effective address as a number (R120). -/
theorem State.effAddr_toNat (s : State) (base : Src) (off : Word) :
    (s.effAddr base off).toNat = ((s.val base).toNat + off.toNat) % 65536 :=
  BitVec.toNat_add _ _

/-- Without an offset the effective address is the base (R54). -/
theorem State.effAddr_zero (s : State) (base : Src) : s.effAddr base 0#16 = s.val base :=
  BitVec.add_zero _

/-- What a byte load does: its value, `ip`, and its frame (R121). -/
theorem State.loadByte_spec (s : State) (a : Reg) (b : Src) (off : Word) :
    ((s.loadByte a b off).reg a).toNat = (s.mem.read (s.effAddr b off).toNat).toNat ∧
    (s.loadByte a b off).ip = s.ip ∧ Frame s (s.loadByte a b off) [a] [] := by
  refine ⟨?value, rfl, s.frame_setReg a _⟩
  rw [State.reg_loadByte, if_pos rfl, zext16_toNat, State.readByte]

/-- What a word load does: its value, `ip`, and its frame (R122). -/
theorem State.loadWord_spec (s : State) (a : Reg) (b : Src) (off : Word) :
    ((s.loadWord a b off).reg a).toNat =
      (s.readByte (s.effAddr b off)).toNat + 256 * (s.readByte (s.effAddr b off + 1)).toNat ∧
    (s.loadWord a b off).ip = s.ip ∧ Frame s (s.loadWord a b off) [a] [] := by
  refine ⟨?value, rfl, s.frame_setReg a _⟩
  rw [State.reg_loadWord, if_pos rfl, State.readWord, wordOfBytes_toNat]

/-- `MemWrite(addr, 1, v)` changes the addressed byte (20_memory.md R32). -/
theorem State.frame_writeByte (s : State) (a : Word) (v : Byte) : Frame s (s.writeByte a v) [] [a] := by
  refine ⟨fun r _ => s.writeByte_reg a v r, fun b hb => ?mem, ⟨rfl, rfl⟩, rfl,
    ⟨rfl, fun d => s.writeByte_drive a v d, rfl, rfl⟩⟩
  rw [State.readByte_writeByte, if_neg (List.ne_of_not_mem_cons hb)]

/-- What a byte store does: the stored byte, `ip`, and its frame (R123). -/
theorem State.storeByte_spec (s : State) (a b : Src) (off : Word) :
    ((s.storeByte a b off).readByte (s.effAddr a off)).toNat = (s.val b).toNat % 256 ∧
    (s.storeByte a b off).ip = s.ip ∧ Frame s (s.storeByte a b off) [] [s.effAddr a off] := by
  refine ⟨?byte, rfl, s.frame_writeByte _ _⟩
  rw [State.readByte_storeByte, if_pos rfl, loByte_toNat]

/-- What a word store does: the two stored bytes, `ip`, and its frame (R124). -/
theorem State.storeWord_spec (s : State) (a b : Src) (off : Word) :
    ((s.storeWord a b off).readByte (s.effAddr a off)).toNat = (s.val b).toNat % 256 ∧
    ((s.storeWord a b off).readByte (s.effAddr a off + 1)).toNat = (s.val b).toNat / 256 ∧
    (s.storeWord a b off).ip = s.ip ∧
    Frame s (s.storeWord a b off) [] [s.effAddr a off, s.effAddr a off + 1] := by
  refine ⟨?low, ?high, rfl, s.frame_writeWord _ _⟩
  case low => rw [State.readByte_storeWord, if_neg (word_ne_succ _), if_pos rfl, loByte_toNat]
  case high => rw [State.readByte_storeWord, if_pos rfl, hiByte_toNat]

/-- Settles O32: the three forms are one byte load, each with its offset. -/
theorem loadReadsAByte : Obligations.LoadReadsAByte := by
  refine fun a b s => ⟨⟨_, rfl, ?none⟩, fun off => ⟨_, rfl, ?byte⟩, fun off => ⟨_, rfl, ?word⟩⟩
  case none => simpa only [State.effAddr_zero] using s.loadByte_spec a b 0#16
  case byte => simpa only [State.effAddr_toNat, zext16_toNat] using s.loadByte_spec a b (zext16 off)
  case word => simpa only [State.effAddr_toNat] using s.loadByte_spec a b off

/-- Settles O33: the three forms are one word load, each with its offset. -/
theorem loadwReadsAWord : Obligations.LoadwReadsAWord := by
  refine fun a b s => ⟨⟨_, rfl, ?none⟩, fun off => ⟨_, rfl, s.loadWord_spec a b (zext16 off)⟩,
    fun off => ⟨_, rfl, s.loadWord_spec a b off⟩⟩
  simpa only [State.effAddr_zero] using s.loadWord_spec a b 0#16

/-- Settles O34: the three forms are one byte store, each with its offset. -/
theorem storeWritesExactlyOneByte : Obligations.StoreWritesExactlyOneByte := fun a b s =>
  ⟨⟨_, rfl, s.storeByte_spec a b 0⟩, fun off => ⟨_, rfl, s.storeByte_spec a b (zext16 off)⟩,
    fun off => ⟨_, rfl, s.storeByte_spec a b off⟩⟩

/-- Settles O35: the three forms are one word store, each with its offset. -/
theorem storewWritesExactlyTwoBytes : Obligations.StorewWritesExactlyTwoBytes := fun a b s =>
  ⟨⟨_, rfl, s.storeWord_spec a b 0⟩, fun off => ⟨_, rfl, s.storeWord_spec a b (zext16 off)⟩,
    fun off => ⟨_, rfl, s.storeWord_spec a b off⟩⟩

/-! ## A byte, there and back -/

theorem eq_zext16_of_toNat_eq {off : Word} {f : Byte} (h : off.toNat = f.toNat) : off = zext16 f :=
  BitVec.eq_of_toNat_eq (h.trans (zext16_toNat f).symm)

theorem exec_of_isStoreByte {base b : Src} {off : Word} {i : Instr} (h : IsStoreByte base b off i) (s : State) :
    exec i s = .next (s.storeByte base b off) := by
  rcases h with ⟨rfl, rfl⟩ | ⟨f, hf, rfl⟩ | rfl
  · rfl
  · rw [eq_zext16_of_toNat_eq hf]
    rfl
  · rfl

theorem exec_of_isLoadByte {r : Reg} {base : Src} {off : Word} {i : Instr} (h : IsLoadByte r base off i) (s : State) :
    exec i s = .next (s.loadByte r base off) := by
  rcases h with ⟨rfl, rfl⟩ | ⟨f, hf, rfl⟩ | rfl
  · rfl
  · rw [eq_zext16_of_toNat_eq hf]
    rfl
  · rfl

/-- Settles O36: whatever their forms, one byte store and one byte load; the store leaves the registers, so the load
computes the same address. -/
theorem storeThenLoadGivesTheByte : Obligations.StoreThenLoadGivesTheByte := by
  intro base base' b off off' r i j s x hi hj haddr
  refine ⟨_, _, exec_of_isStoreByte hi s, exec_of_isLoadByte hj _, ?value, ?next⟩
  case value =>
    have hsame : ((s.storeByte base b off).setIp x).effAddr base' off' = s.effAddr base off := by
      rw [← haddr, State.effAddr, State.effAddr, State.setIp_val, State.val_congr (s.storeByte_regs base b off)]
    rw [State.reg_loadByte, if_pos rfl, hsame, State.setIp_readByte, zext16_toNat]
    exact (s.storeByte_spec base b off).1
  case next =>
    have hkept := s.readByte_storeByte base b off (s.effAddr base off + 1)
    rw [if_neg (word_ne_succ _).symm] at hkept
    exact hkept

/-! ## The framebuffer (20_memory.md R38) -/

/-- A pixel of a framebuffer that fits has an address inside guest memory. -/
theorem State.pixelAddress_lt {s : State} {c r : Nat} (hfits : s.params.screen.fits) (hc : c < s.params.screen.width)
    (hr : r < s.params.screen.height) : s.pixelAddress c r < 65536 := by
  have hrow : (r + 1) * s.params.screen.width ≤ s.params.screen.height * s.params.screen.width :=
    Nat.mul_le_mul_right _ hr
  have hfits' : s.params.screen.base + s.params.screen.width * s.params.screen.height ≤ 65536 := hfits
  rw [Nat.succ_mul] at hrow
  rw [Nat.mul_comm] at hfits'
  rw [State.pixelAddress]
  omega

/-- In row-major order column and row can be read off the address (decision D26). -/
theorem rowMajor_inj {w c r c' r' : Nat} (hc : c < w) (hc' : c' < w) (h : r * w + c = r' * w + c') :
    c = c' ∧ r = r' := by
  have hw : 0 < w := Nat.zero_lt_of_lt hc
  have hmod := congrArg (· % w) h
  have hdiv := congrArg (· / w) h
  simp only [Nat.mul_comm _ w, Nat.mul_add_mod, Nat.mod_eq_of_lt hc, Nat.mod_eq_of_lt hc'] at hmod
  simp only [Nat.mul_comm _ w, Nat.mul_add_div hw, Nat.div_eq_of_lt hc, Nat.div_eq_of_lt hc', Nat.add_zero] at hdiv
  exact ⟨hmod, hdiv⟩

/-- Every pixel after a byte store at the address `p` (R38, R178). -/
theorem State.pixel_storeByte (s : State) {p : Nat} (hp : p < 65536) (v : Byte) (c r : Nat) :
    (s.storeByte (.imm16 (BitVec.ofNat 16 p)) (.imm8 v) 0#16).pixel c r =
      if p = s.pixelAddress c r then v else s.pixel c r := by
  have haddr : (BitVec.ofNat 16 p).toNat = p := Nat.mod_eq_of_lt hp
  have hv : loByte (zext16 v) = v := by
    apply BitVec.eq_of_toNat_eq
    rw [loByte_toNat, zext16_toNat, Nat.mod_eq_of_lt v.isLt]
  rw [State.pixel, State.storeByte_mem, Memory.read_write, State.effAddr_zero, State.val, State.val, haddr, hv]
  rfl

/-- Settles O37: the store writes the one byte at the pixel's address, and no other pixel has that address. -/
theorem storeToThePixelAddressIsThePixel : Obligations.StoreToThePixelAddressIsThePixel := by
  intro s v c r hfits hc hr
  have hlt := State.pixelAddress_lt hfits hc hr
  refine ⟨_, rfl, ?pixel, fun c' r' hc' hr' hne => ?others⟩
  case pixel => exact (s.pixel_storeByte hlt v c r).trans (if_pos rfl)
  case others =>
    have hother : s.pixelAddress c r ≠ s.pixelAddress c' r' := fun h => by
      simp only [State.pixelAddress, Nat.add_assoc, Nat.add_left_cancel_iff] at h
      obtain ⟨hcc, hrr⟩ := rowMajor_inj hc hc' h
      exact hne.elim (fun hn => hn hcc.symm) (fun hn => hn hrr.symm)
    exact (s.pixel_storeByte hlt v c' r').trans (if_neg hother)

end Sys2Proof.Machine
end

section
/-!
PROOFS. What any instruction can do, said once (`exec_effect`), and the promises about all instructions that follow
from it; before it the disk instructions (44_disk_io.md) and `wait` and `poll` (40_machine_control.md).
-/

namespace Sys2Proof.Machine

open Claims

/-! ## `wait` and `poll` (R72, R74) -/

theorem exec_poll (s : State) : exec .poll s = .next s.consume := rfl

theorem exec_wait_of_pending {s : State} (h : s.ev.kind ≠ .none) : exec .wait s = .next s.consume := by
  rw [exec, execWait, if_pos h]

theorem exec_wait_of_empty {s : State} (h : s.ev.kind = .none) :
    exec .wait s = .next { s with mode := .waitingForEvent } := by
  rw [exec, execWait, if_neg (not_not.2 h)]

/-- Consumption writes A and B and no other register (R146). -/
theorem State.consume_regsKept (s : State) : RegsKept s s.consume [.A, .B] := by
  intro r hr
  have hA : r ≠ .A := List.ne_of_not_mem_cons hr
  have hB : r ≠ .B := List.ne_of_not_mem_cons (List.not_mem_of_not_mem_cons hr)
  rw [State.reg_consume, if_neg hB, if_neg hA]

/-- Settles O16: `wait` is a consumption or a change of mode. -/
theorem waitTakesTheEventOrBlocks : Obligations.WaitTakesTheEventOrBlocks := by
  intro s
  by_cases h : s.ev.kind = .none
  · refine ⟨_, exec_wait_of_empty h, rfl, rfl, fun _ _ => rfl, ⟨rfl, fun d => ?_, rfl, rfl⟩, ?_⟩
    · cases d <;> rfl
    · rw [if_pos h]
      exact ⟨rfl, fun _ _ => rfl, rfl⟩
  · refine ⟨_, exec_wait_of_pending h, rfl, rfl, fun _ _ => rfl, ⟨rfl, s.consume_drive, rfl, rfl⟩, ?_⟩
    rw [if_neg h]
    exact ⟨rfl, rfl, rfl, s.consume_regsKept, rfl⟩

/-- Settles O17: `poll` is a consumption. -/
theorem pollAlwaysConsumes : Obligations.PollAlwaysConsumes := by
  refine ⟨fun s => ?consumes, rfl, rfl, rfl, rfl, rfl, rfl⟩
  exact ⟨_, exec_poll s, rfl, rfl, rfl, rfl, s.consume_regsKept, fun _ _ => rfl, ⟨rfl, rfl⟩,
    ⟨rfl, s.consume_drive, rfl, rfl⟩⟩

/-! ## `read` and `write` (R130 to R132) -/

/-- Nothing but the event slot and the record of drive `d` changes. -/
def DiskFrame (s t : State) (d : DriveId) : Prop :=
  t.ip = s.ip ∧ RegsKept s t [] ∧ MemKept s t [] ∧ RunStateKept s t ∧ t.clock = s.clock ∧ t.keys = s.keys ∧
    t.params = s.params ∧ ∀ e, e ≠ d → t.drive e = s.drive e

theorem State.diskFrame_postDisk (s : State) (d : DriveId) (r : DiskResult) : DiskFrame s (s.postDisk d r) d :=
  ⟨rfl, fun q _ => s.postDisk_reg d r q, fun _ _ => rfl, ⟨rfl, rfl⟩, rfl, rfl, rfl,
    fun e _ => s.postDisk_drive d r e⟩

theorem State.diskFrame_startTransfer (s : State) (d : DriveId) (dir : Dir) (ma da : Word) :
    DiskFrame s (s.startTransfer d dir ma da) d :=
  ⟨by simp, fun q _ => State.reg_congr (by simp) q, fun q _ => State.readByte_congr (by simp) q,
    ⟨by simp, by simp⟩, by simp, by simp, by simp, fun _ he => s.startTransfer_drive_other dir ma da he⟩

/-- The answer to a request in direction `dir` between `ma` and `da`: the first check that fails, or the transfer
(R130, R131). -/
def DiskAnswer (s t : State) (d : DriveId) (dir : Dir) (ma da : Word) : Prop :=
  if (s.drive d).present = false then t.ev = ⟨diskFinished d, 1⟩ ∧ t.drive d = s.drive d
  else if (s.drive d).xfer ≠ .idle then t.ev = ⟨diskFinished d, 2⟩ ∧ t.drive d = s.drive d
  else if dir = .wr ∧ (s.drive d).readonly = true then t.ev = ⟨diskFinished d, 3⟩ ∧ t.drive d = s.drive d
  else t.ev = s.ev ∧ t.drive d = { s.drive d with xfer := .busy dir s.clock ma da, idle := 0 }

theorem State.requestRead_spec (s : State) (d : DriveId) (ma da : Word) :
    DiskFrame s (s.requestRead d ma da) d ∧ DiskAnswer s (s.requestRead d ma da) d .rd ma da := by
  unfold DiskAnswer
  rcases s.requestRead_cases d ma da with ⟨hp, h⟩ | ⟨hp, hx, h⟩ | ⟨hp, hx, h⟩
  · simp [h, hp, State.diskFrame_postDisk, DiskResult.code]
  · simp [h, hp, hx, State.diskFrame_postDisk, DiskResult.code]
  · simp [h, hp, hx, State.diskFrame_startTransfer, State.startTransfer_drive]

theorem State.requestWrite_spec (s : State) (d : DriveId) (ma da : Word) :
    DiskFrame s (s.requestWrite d ma da) d ∧ DiskAnswer s (s.requestWrite d ma da) d .wr ma da := by
  unfold DiskAnswer
  rcases s.requestWrite_cases d ma da with ⟨hp, h⟩ | ⟨hp, hx, h⟩ | ⟨hp, hx, hro, h⟩ | ⟨hp, hx, hro, h⟩
  · simp [h, hp, State.diskFrame_postDisk, DiskResult.code]
  · simp [h, hp, hx, State.diskFrame_postDisk, DiskResult.code]
  · simp [h, hp, hx, hro, State.diskFrame_postDisk, DiskResult.code]
  · simp [h, hp, hx, hro, State.diskFrame_startTransfer, State.startTransfer_drive]

/-- A request with its frame and its answer is what the obligation about the disk instructions asks for. -/
theorem disk_of_spec {i : Instr} {s t : State} {d : DriveId} {dir : Dir} {ma da : Word} (hexec : exec i s = .next t)
    (hspec : DiskFrame s t d ∧ DiskAnswer s t d dir ma da) :
    ∃ t, exec i s = .next t ∧ t.ip = s.ip ∧ RegsKept s t [] ∧ MemKept s t [] ∧ RunStateKept s t ∧
      t.clock = s.clock ∧ t.keys = s.keys ∧ t.params = s.params ∧ (∀ e, e ≠ d → t.drive e = s.drive e) ∧
      DiskAnswer s t d dir ma da := by
  obtain ⟨⟨hip, hregs, hmem, hrun, hclock, hkeys, hparams, hother⟩, hanswer⟩ := hspec
  exact ⟨t, hexec, hip, hregs, hmem, hrun, hclock, hkeys, hparams, hother, hanswer⟩

/-- Settles O38: the four constructors are one request each. -/
theorem diskRequestsStartATransferOrPostAnError : Obligations.DiskRequestsStartATransferOrPostAnError := by
  rintro i d dir a b s (⟨rfl, rfl, rfl⟩ | ⟨rfl, rfl, rfl⟩ | ⟨rfl, rfl, rfl⟩ | ⟨rfl, rfl, rfl⟩)
  · exact disk_of_spec rfl (s.requestRead_spec .zero _ _)
  · exact disk_of_spec rfl (s.requestRead_spec .one _ _)
  · exact disk_of_spec rfl (s.requestWrite_spec .zero _ _)
  · exact disk_of_spec rfl (s.requestWrite_spec .one _ _)

/-! ## What any instruction can do -/

theorem State.frame_refl (s : State) : Frame s s [] [] :=
  ⟨fun _ _ => rfl, fun _ _ => rfl, ⟨rfl, rfl⟩, rfl, ⟨rfl, fun _ => rfl, rfl, rfl⟩⟩

theorem State.frame_jumpIf (s : State) (p : Word → Bool) (a b : Src) : Frame s (s.jumpIf p a b) [] [] := by
  rw [State.jumpIf_eq]
  exact s.frame_setIp _

@[simp] theorem State.jumpIf_mem (s : State) (p : Word → Bool) (a b : Src) : (s.jumpIf p a b).mem = s.mem := by
  rw [State.jumpIf_eq, State.setIp_mem]

/-- Everything an instruction can do to the state: change registers, `ip` and memory inside a frame, halt, consume the
event, block, reject a disk request, or start a transfer. -/
inductive ExecEffect (i : Instr) (s : State) : State → Prop
  | core {t : State} (stored : List Word) (loads : storesMemory i = false → stored = [])
      (frame : Frame s t (writtenRegs i) stored) (mem_wf : s.mem.wf Config.memSize → t.mem.wf Config.memSize) :
      ExecEffect i s t
  | halt (hi : i = .halt) : ExecEffect i s (s.stop .haltInstruction)
  | consume (hi : i = .wait ∨ i = .poll) : ExecEffect i s s.consume
  | block (hi : i = .wait) (empty : s.ev.kind = .none) : ExecEffect i s { s with mode := .waitingForEvent }
  | reject (d : DriveId) (r : DiskResult) (hi : driveNamed i = some d) (failed : r ≠ .success) :
      ExecEffect i s (s.postDisk d r)
  | start (d : DriveId) (dir : Dir) (ma da : Word) (hi : driveNamed i = some d) (bound : (s.drive d).present = true)
      (idle : (s.drive d).xfer = .idle) (writable : dir = .wr → (s.drive d).readonly = false) :
      ExecEffect i s (s.startTransfer d dir ma da)

theorem State.requestRead_effect {i : Instr} {d : DriveId} (hi : driveNamed i = some d) (s : State) (ma da : Word) :
    ExecEffect i s (s.requestRead d ma da) := by
  rcases s.requestRead_cases d ma da with ⟨-, h⟩ | ⟨-, -, h⟩ | ⟨hp, hx, h⟩ <;> rw [h]
  · exact .reject d _ hi nofun
  · exact .reject d _ hi nofun
  · exact .start d .rd ma da hi hp hx nofun

theorem State.requestWrite_effect {i : Instr} {d : DriveId} (hi : driveNamed i = some d) (s : State) (ma da : Word) :
    ExecEffect i s (s.requestWrite d ma da) := by
  rcases s.requestWrite_cases d ma da with ⟨-, h⟩ | ⟨-, -, h⟩ | ⟨-, -, -, h⟩ | ⟨hp, hx, hro, h⟩ <;> rw [h]
  · exact .reject d _ hi nofun
  · exact .reject d _ hi nofun
  · exact .reject d _ hi nofun
  · exact .start d .wr ma da hi hp hx fun _ => hro

theorem exec_answers_with_effect (i : Instr) (s : State) : ∃ t, exec i s = .next t ∧ ExecEffect i s t := by
  cases i with
  | nop => exact ⟨_, rfl, .core [] (fun _ => rfl) s.frame_refl id⟩
  | halt => exact ⟨_, rfl, .halt rfl⟩
  | poll => exact ⟨_, rfl, .consume (.inr rfl)⟩
  | wait =>
    by_cases h : s.ev.kind = .none
    · exact ⟨_, exec_wait_of_empty h, .block rfl h⟩
    · exact ⟨_, exec_wait_of_pending h, .consume (.inl rfl)⟩
  | add | sub | xor | and | or | shl | shr | cmp | not | neg | load | loadOff8 | loadOff16
  | loadw | loadwOff8 | loadwOff16 => exact ⟨_, rfl, .core [] (fun _ => rfl) (s.frame_setReg _ _) id⟩
  | ret => exact ⟨_, rfl, .core [] (fun _ => rfl) (s.frame_raiseStack.trans (State.frame_setIp _ _)) id⟩
  | pop a => exact ⟨_, rfl, .core [] (fun _ => rfl) (s.frame_raiseStack.trans (State.frame_setReg _ a _)) id⟩
  | push b => exact ⟨_, rfl, .core _ nofun (s.frame_pushWord _) fun h => State.pushWord_mem_wf h _⟩
  | call b =>
    exact ⟨_, rfl, .core _ nofun ((s.frame_pushWord _).trans (State.frame_setIp _ _)) fun h =>
      State.pushWord_mem_wf h _⟩
  | jmp b => exact ⟨_, rfl, .core [] (fun _ => rfl) (s.frame_setIp _) id⟩
  | jez a b | jnz a b | jl a b | jg a b | jle a b | jge a b =>
    exact ⟨_, rfl, .core [] (fun _ => rfl) (s.frame_jumpIf _ a b) (by rw [State.jumpIf_mem]; exact id)⟩
  | store | storeOff8 | storeOff16 =>
    exact ⟨_, rfl, .core _ nofun (s.frame_writeByte _ _) fun h => State.writeByte_mem_wf h _ _⟩
  | storew | storewOff8 | storewOff16 =>
    exact ⟨_, rfl, .core _ nofun (s.frame_writeWord _ _) fun h => State.writeWord_mem_wf h _ _⟩
  | read0 | read1 => exact ⟨_, rfl, State.requestRead_effect rfl s _ _⟩
  | write0 | write1 => exact ⟨_, rfl, State.requestWrite_effect rfl s _ _⟩

theorem exec_effect {i : Instr} {s t : State} (h : exec i s = .next t) : ExecEffect i s t := by
  obtain ⟨u, hu, heffect⟩ := exec_answers_with_effect i s
  rw [hu] at h
  cases h
  exact heffect

/-! ## What follows for all instructions -/

section
variable {i : Instr} {s t : State}

/-- No cycle passes inside an instruction (R152). -/
theorem ExecEffect.clock_eq (h : ExecEffect i s t) : t.clock = s.clock := by
  cases h with
  | core stored loads frame mem_wf =>
    obtain ⟨-, -, -, -, hclock, -⟩ := frame
    exact hclock
  | start => exact s.startTransfer_clock _ _ _ _
  | halt | consume | block | reject => rfl

theorem ExecEffect.regsKept (h : ExecEffect i s t) : RegsKept s t (writtenRegs i) := by
  cases h with
  | core stored loads frame mem_wf => exact frame.1
  | consume hi => rcases hi with rfl | rfl <;> exact s.consume_regsKept
  | start => exact fun r _ => State.reg_congr (s.startTransfer_regs _ _ _ _) r
  | halt | block | reject => exact fun r _ => State.reg_congr rfl r

theorem ExecEffect.memKept (h : ExecEffect i s t) (hi : storesMemory i = false) : MemKept s t [] := by
  cases h with
  | core stored loads frame mem_wf => rw [← loads hi]; exact frame.2.1
  | start => exact fun a _ => State.readByte_congr (s.startTransfer_mem _ _ _ _) a
  | halt | consume | block | reject => exact fun _ _ => rfl

end

/-- Settles O39: a register outside the list, or a byte under an instruction that does not store, is kept. -/
theorem onlyTheListedInstructionsWrite : Obligations.OnlyTheListedInstructionsWrite := by
  intro i s t h
  refine ⟨fun r hr => ?regs, fun a ha => ?mem⟩
  case regs => exact not_not.1 fun hlisted => hr ((exec_effect h).regsKept r hlisted)
  case mem =>
    by_contra hstores
    exact ha ((exec_effect h).memKept (by simpa using hstores) a List.not_mem_nil)

/-- The codes of the three failures (decision D8). -/
theorem DiskResult.code_mem_of_ne_success {r : DiskResult} (h : r ≠ .success) : r.code ∈ [1#16, 2#16, 3#16] := by
  cases r with
  | success => exact absurd rfl h
  | notPresent | diskBusy | notWriteable => decide

/-- Settles O40: of the effects only a consumption and a rejection change the slot. -/
theorem onlyConsumersAndRejectionsChangeTheEvent : Obligations.OnlyConsumersAndRejectionsChangeTheEvent := by
  intro i s t h hev
  cases exec_effect h with
  | core stored loads frame mem_wf =>
    obtain ⟨-, -, -, hkept, -⟩ := frame
    exact absurd hkept hev
  | consume hi => exact .inl ⟨hi, rfl⟩
  | reject d r hi failed => exact .inr ⟨d, hi, rfl, DiskResult.code_mem_of_ne_success failed⟩
  | start => exact absurd (s.startTransfer_ev _ _ _ _) hev
  | halt | block => exact absurd rfl hev

/-- An instruction's meaning with another clock value, when it does not name a drive (R201). -/
theorem exec_withClock (i : Instr) (s : State) (c : Nat) (hi : driveNamed i = none) :
    ∃ t, exec i s = .next t ∧ exec i { s with clock := c } = .next { t with clock := c } := by
  cases i with
  | wait =>
    by_cases h : s.ev.kind = .none
    · exact ⟨_, exec_wait_of_empty h, exec_wait_of_empty (s := { s with clock := c }) h⟩
    · exact ⟨_, exec_wait_of_pending h, exec_wait_of_pending (s := { s with clock := c }) h⟩
  | jez a b => exact ⟨_, exec_jez a b s, exec_jez a b _⟩
  | jnz a b => exact ⟨_, exec_jnz a b s, exec_jnz a b _⟩
  | jl a b => exact ⟨_, exec_jl a b s, exec_jl a b _⟩
  | jg a b => exact ⟨_, exec_jg a b s, exec_jg a b _⟩
  | jle a b => exact ⟨_, exec_jle a b s, exec_jle a b _⟩
  | jge a b => exact ⟨_, exec_jge a b s, exec_jge a b _⟩
  | read0 | read1 | write0 | write1 => cases hi
  | nop | ret | halt | poll | add | sub | xor | and | or | shl | shr | cmp | not | neg | pop | push | jmp | call
  | load | loadOff8 | loadOff16 | loadw | loadwOff8 | loadwOff16
  | store | storeOff8 | storeOff16 | storew | storewOff8 | storewOff16 => exact ⟨_, rfl, rfl⟩

/-- Settles O42: the answer of `exec_withClock` is the only one. -/
theorem instructionsDoNotReadTheClock : Obligations.InstructionsDoNotReadTheClock := by
  intro i s t c hi h
  obtain ⟨u, hu, hclock⟩ := exec_withClock i s c hi
  rw [hu] at h
  cases h
  exact hclock

end Sys2Proof.Machine
end

section
/-!
PROOFS. A step (60_exceptions.md R152, R153), the halted core, and the run loop: each of its rounds is a step, so what
every step keeps, every `run` keeps.
-/

namespace Sys2Proof.Machine

open Claims

/-! ## A step of a running core (R152) -/

/-- Settles O8: the rule `step_of_exec`, the definitions of fetch, next address and cost written out. -/
theorem stepRunsDecodedInstruction : Obligations.StepRunsDecodedInstruction :=
  fun _ _ _ _ hmode hfetch hexec => step_of_exec hmode hfetch hexec

/-- Settles O9: the encoding in memory is fetched as its instruction and its length. -/
theorem stepRunsEncodedInstruction : Obligations.StepRunsEncodedInstruction := by
  intro s t i hmode hwf hbytes hexec
  obtain ⟨hlen, -⟩ := encodedLength i
  rw [← hlen] at hbytes hexec
  exact step_of_exec hmode (decodeInvertsEncode i s.fetchByte hwf hbytes) hexec

/-- Taking the exception: no cycle passes (R141). -/
theorem step_of_illegal {s : State} {c : IllegalCause} (hmode : s.mode = .running) (h : s.fetch = .error c) :
    step s = .next (s.raiseIllegal c) := by
  rw [step_running hmode, runningRound, stepInstr_of_illegal h]
  rfl

/-- Settles O10: the decoder refuses the bytes at `ip`, and the step takes the exception. -/
theorem illegalInstructionOnlyStopsTheCore : Obligations.IllegalInstructionOnlyStopsTheCore := by
  refine fun s hmode => ⟨fun hop => ?opcode, fun hop hbad => ?destination⟩
  case opcode =>
    refine step_of_illegal (c := .illegalOpcode) hmode ((unlistedOpcodesAreIllegal _).2 ?_)
    rwa [State.fetchByte_zero]
  case destination =>
    refine step_of_illegal (c := .illegalDestination) hmode ((destinationCodesAboveSevenAreIllegal _).2 ⟨?_, hbad⟩)
    rwa [State.fetchByte_zero]

/-- Settles O13: of the five things a step can do, a running core does one of two, and no instruction itself moves the
clock. -/
theorem stepChargesTheCost : Obligations.StepChargesTheCost := by
  intro s t hmode hstep
  rcases step_cases hstep with ⟨h, -⟩ | ⟨h, -⟩ | ⟨h, -⟩ | ⟨-, e, he, rfl⟩ | ⟨-, i, n, u, hf, hexec, rfl⟩
  · cases hmode.symm.trans h
  · cases hmode.symm.trans h
  · cases hmode.symm.trans h
  · refine ⟨fun i n hf => ?_, fun c _ => s.raiseIllegal_clock e⟩
    cases he.symm.trans hf
  · refine ⟨fun j m hj => ?_, fun c hc => ?_⟩
    · cases hf.symm.trans hj
      rw [State.ticks_clock, (exec_effect hexec).clock_eq]
      rfl
    · cases hf.symm.trans hc

/-- The only mode changes of an instruction are those of `halt` and a `wait` with nothing pending (R15). -/
theorem ExecEffect.mode_cases {i : Instr} {s t : State} (h : ExecEffect i s t) :
    t.mode = s.mode ∨ (i = .halt ∧ t.mode = .halted ∧ t.haltCause = .haltInstruction) ∨
    (i = .wait ∧ s.ev.kind = .none ∧ t.mode = .waitingForEvent) := by
  cases h with
  | core stored loads frame mem_wf =>
    obtain ⟨-, -, ⟨hmode, -⟩, -⟩ := frame
    exact .inl hmode
  | halt hi => exact .inr (.inl ⟨hi, rfl, rfl⟩)
  | block hi empty => exact .inr (.inr ⟨hi, empty, rfl⟩)
  | start => exact .inl (s.startTransfer_mode _ _ _ _)
  | consume | reject => exact .inl rfl

/-- Settles O41: each of the five things a step can do, with the mode it leaves. -/
theorem modeTransitionsAreTheListed : Obligations.ModeTransitionsAreTheListed := by
  intro s t hstep hne
  rcases step_cases hstep with ⟨-, rfl⟩ | ⟨hm, hk, rfl⟩ | ⟨-, -, rfl⟩ | ⟨hm, e, he, rfl⟩ | ⟨hm, i, n, u, hf, hexec, rfl⟩
  · exact absurd rfl hne
  · exact .inr (.inr ⟨hm, rfl, hk⟩)
  · exact absurd s.tick_mode hne
  · exact .inl ⟨hm, rfl, .inr ⟨e, he, rfl⟩⟩
  · rw [State.ticks_mode] at hne ⊢
    rw [State.ticks_haltCause]
    rcases (exec_effect hexec).mode_cases with hkept | ⟨rfl, hmode, hcause⟩ | ⟨rfl, hk, hmode⟩
    · exact absurd hkept hne
    · exact .inl ⟨hm, hmode, .inl ⟨n, hf, hcause⟩⟩
    · exact .inr (.inl ⟨hm, hmode, hk, n, hf⟩)

/-! ## A blocked core (R73, R147) -/

/-- Settles O18: the waiting round is a wake-up or one `Tick`. -/
theorem waitingCoreWakesOnAnEvent : Obligations.WaitingCoreWakesOnAnEvent := by
  intro s hm
  by_cases hk : s.ev.kind = .none
  · have hround : s.waitingRound = s.tick := if_neg (not_not.2 hk)
    refine ⟨s.tick, by rw [step_waiting hm, hround], s.tick_ip, s.tick_haltCause, s.tick_keys, s.tick_params, ?_⟩
    rw [if_pos hk]
    exact ⟨rfl, s.tick_mode.trans hm, s.tick_clock, fun r _ => State.reg_congr s.tick_regs r⟩
  · have hround : s.waitingRound = s.wakeUp := if_pos hk
    refine ⟨s.wakeUp, by rw [step_waiting hm, hround], rfl, rfl, rfl, rfl, ?_⟩
    rw [if_neg hk]
    exact ⟨rfl, rfl, rfl, rfl, rfl, s.consume_regsKept, fun _ _ => rfl, s.wakeUp_drive⟩

/-! ## A halted core (R71, R153) -/

theorem run_halted {s : State} (h : s.mode = .halted) (n : Nat) : run n s = .next s :=
  runLoop_stop (.inl h)

theorem exec_halt (s : State) : exec .halt s = .next (s.stop .haltInstruction) := rfl

/-- Settles O15: `halt` is a stop, and the stopped core is halted. -/
theorem haltStopsTheCore : Obligations.HaltStopsTheCore :=
  ⟨rfl, fun s => ⟨_, exec_halt s, rfl, rfl, rfl, fun r _ => s.stop_reg _ r, fun _ _ => rfl, rfl,
    ⟨rfl, s.stop_drive _, rfl, rfl⟩, step_halted rfl, run_halted rfl⟩⟩

/-- An answer of a drive operation that may be refused: the state is as before, or the operation's on some drive. -/
theorem onDrive_replyTo_cases {s t : State} {r : HostReply} {n : Nat} {f : DriveId → Option State}
    (h : onDrive s n (fun d => replyTo s (f d)) = (r, t)) : t = s ∨ ∃ d, f d = some t := by
  rcases onDrive_cases h with rfl | ⟨d, -, hd⟩
  · exact .inl rfl
  · exact (replyTo_cases hd).imp_right fun hf => ⟨d, hf⟩

/-- A host operation moves the mode only as a reset or a `run` (R143, R170). -/
theorem hostCall_mode_cases {c : HostCall} {s t : State} {r : HostReply} (h : hostCall c s = .next (r, t)) :
    c = .init ∨ c = .reset ∨ (∃ n, run n s = .next t) ∨ t.mode = s.mode := by
  cases c with
  | init => exact .inl rfl
  | reset => exact .inr (.inl rfl)
  | run n =>
    simp only [hostCall] at h
    split at h
    case h_1 u hu => cases h; exact .inr (.inr (.inl ⟨n, hu⟩))
    case h_2 => cases h
    case h_3 => cases h
  | keyDown code =>
    cases h
    by_cases hk : code ∈ s.keys
    · rw [State.keyDown_of_mem hk]
      exact .inr (.inr (.inr rfl))
    · exact .inr (.inr (.inr (keyChanged_keyDown hk).mode))
  | keyUp code =>
    cases h
    by_cases hk : code ∈ s.keys
    · exact .inr (.inr (.inr (keyChanged_keyUp hk).mode))
    · rw [State.keyUp_of_not_mem hk]
      exact .inr (.inr (.inr rfl))
  | insertDisk n ro =>
    rcases onDrive_replyTo_cases (Host.Outcome.next.inj h) with rfl | ⟨d, hd⟩
    · exact .inr (.inr (.inr rfl))
    · obtain ⟨-, rfl⟩ := State.insertDisk_eq_some hd
      exact .inr (.inr (.inr (s.setDrive_mode d _)))
  | removeDisk n =>
    rcases onDrive_replyTo_cases (Host.Outcome.next.inj h) with rfl | ⟨d, hd⟩
    · exact .inr (.inr (.inr rfl))
    · obtain ⟨-, rfl⟩ := State.removeDisk_eq_some hd
      exact .inr (.inr (.inr (s.setDrive_mode d _)))
  | fillBuffer n m =>
    rcases onDrive_replyTo_cases (Host.Outcome.next.inj h) with rfl | ⟨d, hd⟩
    · exact .inr (.inr (.inr rfl))
    · obtain ⟨-, -, rfl⟩ := State.fillBuffer_eq_some hd
      exact .inr (.inr (.inr (s.setDrive_mode d _)))
  | readBuffer n | diskStats n =>
    rcases onDrive_cases (Host.Outcome.next.inj h) with rfl | ⟨d, -, hd⟩
    · exact .inr (.inr (.inr rfl))
    · cases hd
      exact .inr (.inr (.inr rfl))
  | screenBuffer | screenWidth | screenHeight =>
    cases h
    exact .inr (.inr (.inr rfl))

/-- Settles O11: a `run` of a halted core changes nothing, and the other operations that are no reset keep the mode. -/
theorem haltedIsTerminalUntilReset : Obligations.HaltedIsTerminalUntilReset := by
  refine fun s hm => ⟨step_halted hm, run_halted hm, fun c t r hcall hne => ?_⟩
  rcases hostCall_mode_cases hcall with h | h | ⟨n, hrun⟩ | hmode
  · exact .inl h
  · exact .inr h
  · rw [run_halted hm] at hrun
    cases hrun
    exact absurd hm hne
  · exact absurd (hmode.trans hm) hne

/-! ## A step answers, and keeps the parameters (10_state.md R27) -/

theorem step_answers (s : State) : ∃ t, step s = .next t := by
  cases hm : s.mode with
  | halted => exact ⟨_, step_halted hm⟩
  | waitingForEvent => exact ⟨_, step_waiting hm⟩
  | running =>
    obtain ⟨t, c, hs, -⟩ := stepInstr_answers s
    rw [step_running hm, runningRound, hs]
    exact ⟨_, rfl⟩

theorem exec_params {i : Instr} {s t : State} (h : exec i s = .next t) : t.params = s.params := by
  obtain ⟨u, hu, hparams⟩ := exec_answers_with_params i s
  rw [hu] at h
  cases h
  exact hparams

theorem step_params {s t : State} (h : step s = .next t) : t.params = s.params := by
  rcases step_cases h with ⟨-, rfl⟩ | ⟨-, -, rfl⟩ | ⟨-, -, rfl⟩ | ⟨-, e, -, rfl⟩ | ⟨-, i, n, u, -, hexec, rfl⟩
  · rfl
  · rfl
  · exact s.tick_params
  · rfl
  · exact (u.ticks_params _).trans ((exec_params hexec).trans (s.setIp_params _))

/-! ## The run loop (R153) -/

/-- With budget left, or with a wake-up due, a round of the loop is one step, charged by the clock. -/
theorem runLoop_round {s t : State} {rem : Nat} (hm : s.mode ≠ .halted) (hstep : step s = .next t)
    (hrem : 1 ≤ rem ∨ (s.mode = .waitingForEvent ∧ s.ev.kind ≠ .none)) (fuel : Nat) :
    runLoop (fuel + 1) rem s = runLoop fuel (rem - (t.clock - s.clock)) t := by
  rcases step_cases hstep with ⟨h, -⟩ | ⟨hw, hk, rfl⟩ | ⟨hw, hk, rfl⟩ | ⟨hr, e, he, rfl⟩ | ⟨hr, i, n, u, hf, hexec, rfl⟩
  · exact absurd h hm
  · rw [runLoop_wakeUp hw hk, State.wakeUp_clock, Nat.sub_self, Nat.sub_zero]
  · obtain ⟨rem, rfl⟩ := Nat.exists_eq_add_of_le' (hrem.resolve_right fun ⟨_, h⟩ => h hk)
    rw [runLoop_tick hw hk, State.tick_clock, Nat.add_sub_cancel_left, Nat.add_sub_cancel]
  · obtain ⟨rem, rfl⟩ := Nat.exists_eq_add_of_le' (hrem.resolve_right fun ⟨h, _⟩ => by cases hr.symm.trans h)
    rw [runLoop_stepInstr hr (stepInstr_of_illegal he), State.raiseIllegal_clock, Nat.sub_self]
    rfl
  · obtain ⟨rem, rfl⟩ := Nat.exists_eq_add_of_le' (hrem.resolve_right fun ⟨h, _⟩ => by cases hr.symm.trans h)
    have hclock : u.clock = s.clock := (exec_effect hexec).clock_eq
    rw [runLoop_stepInstr hr (stepInstr_of_next hf hexec), State.ticks_clock, hclock, Nat.add_sub_cancel_left]

/-- Settles O54: the round, and where the loop returns without budget. -/
theorem runIteratesStep : Obligations.RunIteratesStep :=
  ⟨fun fuel _ _ _ hm hstep hrem => runLoop_round hm hstep hrem fuel, fun _ _ h => runLoop_stop (.inr ⟨rfl, h⟩)⟩

/-- The loop is where it returns, or its round is one step. -/
theorem runLoop_stops_or_steps (rem : Nat) (s : State) :
    (s.mode = .halted ∨ (rem = 0 ∧ (s.mode = .waitingForEvent → s.ev.kind = .none))) ∨
    (s.mode ≠ .halted ∧ (1 ≤ rem ∨ (s.mode = .waitingForEvent ∧ s.ev.kind ≠ .none)) ∧ ∃ t, step s = .next t ∧
      ∀ fuel, runLoop (fuel + 1) rem s = runLoop fuel (rem - (t.clock - s.clock)) t) := by
  by_cases hm : s.mode = .halted
  · exact .inl (.inl hm)
  · by_cases hrem : 1 ≤ rem ∨ (s.mode = .waitingForEvent ∧ s.ev.kind ≠ .none)
    · obtain ⟨t, hstep⟩ := step_answers s
      exact .inr ⟨hm, hrem, t, hstep, fun fuel => runLoop_round hm hstep hrem fuel⟩
    · obtain ⟨h0, hwake⟩ := not_or.1 hrem
      exact .inl (.inr ⟨by omega, fun hw => not_not.1 fun hk => hwake ⟨hw, hk⟩⟩)

/-- The induction over the rounds: the loop answers, and what every step keeps holds of its answer. -/
theorem runLoop_induct {P : State → Prop} (hP : ∀ s t, P s → step s = .next t → P t) (fuel rem : Nat) {s : State}
    (hs : P s) : ∃ t, runLoop fuel rem s = .next t ∧ P t := by
  induction fuel generalizing rem s with
  | zero => exact ⟨s, rfl, hs⟩
  | succ fuel ih =>
    rcases runLoop_stops_or_steps rem s with hstop | ⟨-, -, t, hstep, hround⟩
    · exact ⟨s, runLoop_stop hstop, hs⟩
    · rw [hround]
      exact ih _ (hP s t hs hstep)

/-- What every step keeps, every `run` keeps. -/
theorem run_keeps {P : State → Prop} (hP : ∀ s t, P s → step s = .next t → P t) {n : Nat} {s t : State} (hs : P s)
    (hrun : run n s = .next t) : P t := by
  obtain ⟨u, hu, hPu⟩ := runLoop_induct hP (2 * n + 2) n hs
  rw [run, hu] at hrun
  cases hrun
  exact hPu

theorem run_answers (n : Nat) (s : State) : ∃ t, run n s = .next t := by
  obtain ⟨t, ht, -⟩ := runLoop_induct (P := fun _ => True) (fun _ _ _ _ => trivial) (2 * n + 2) n (s := s) trivial
  exact ⟨t, ht⟩

theorem hostCall_answers (c : HostCall) (s : State) : ∃ r t, hostCall c s = .next (r, t) := by
  cases c with
  | run n =>
    obtain ⟨t, ht⟩ := run_answers n s
    exact ⟨.done, t, by simp only [hostCall, ht]⟩
  | init | reset | keyDown | keyUp | insertDisk | removeDisk | readBuffer | fillBuffer | diskStats | screenBuffer
  | screenWidth | screenHeight => exact ⟨_, _, rfl⟩

/-- Settles O12: an instruction, a step and a host operation each answer a next state. -/
theorem nothingFaultsOrIsRefused : Obligations.NothingFaultsOrIsRefused := by
  refine ⟨fun i s => ?_, step_answers, hostCall_answers⟩
  obtain ⟨t, ht, -⟩ := exec_answers_with_params i s
  exact ⟨t, ht⟩

/-- Settles O43: a step keeps them, so a `run` does, and every other host operation is an update of other fields. -/
theorem parametersNeverChange : Obligations.ParametersNeverChange := by
  refine ⟨fun s t => step_params, fun c s t r hcall => ?host⟩
  rcases hostCall_cases hcall with rfl | rfl | rfl | ⟨n, -, hrun⟩ | ⟨_, _, rfl⟩ | ⟨_, _, rfl⟩ | ⟨d, _, _, rfl⟩ |
    ⟨d, _, rfl⟩ | ⟨d, _, _, _, rfl⟩
  · rfl
  · rfl
  · rfl
  · exact run_keeps (P := fun u => u.params = s.params) (fun _ _ hu hstep => (step_params hstep).trans hu) rfl hrun
  · rfl
  · rfl
  · exact s.setDrive_params d _
  · exact s.setDrive_params d _
  · exact s.setDrive_params d _

/-! ## The budget (decision D12) -/

/-- What a step of a core that is not halted does to the clock: nothing at a wake-up or an exception, else one waiting
cycle or the cost of a mnemonic. -/
theorem step_clock_cases {s t : State} (hm : s.mode ≠ .halted) (hstep : step s = .next t) :
    (s.mode = .waitingForEvent ∧ s.ev.kind ≠ .none ∧ t.mode = .running ∧ t.clock = s.clock) ∨
    (s.mode = .waitingForEvent ∧ s.ev.kind = .none ∧ t.clock = s.clock + 1) ∨
    (s.mode = .running ∧ t.mode = .halted ∧ t.clock = s.clock) ∨
    (s.mode = .running ∧ ∃ m, t.clock = s.clock + costIn s.params.cost m) := by
  rcases step_cases hstep with ⟨h, -⟩ | ⟨hw, hk, rfl⟩ | ⟨hw, hk, rfl⟩ | ⟨hr, e, he, rfl⟩ | ⟨hr, i, n, u, hf, hexec, rfl⟩
  · exact absurd h hm
  · exact .inl ⟨hw, hk, rfl, rfl⟩
  · exact .inr (.inl ⟨hw, hk, s.tick_clock⟩)
  · exact .inr (.inr (.inl ⟨hr, rfl, rfl⟩))
  · refine .inr (.inr (.inr ⟨hr, i.mnemonic, ?_⟩))
    rw [State.ticks_clock, (exec_effect hexec).clock_eq]
    rfl

/-- A round with every cost 1 stays inside the budget and leaves fewer rounds. -/
theorem step_within_budget {s t : State} {rem : Nat} (hcost : ∀ m, costIn s.params.cost m = 1) (hm : s.mode ≠ .halted)
    (hstep : step s = .next t) (hrem : 1 ≤ rem ∨ (s.mode = .waitingForEvent ∧ s.ev.kind ≠ .none)) :
    s.clock ≤ t.clock ∧ t.clock - s.clock ≤ rem ∧
      roundsLeft (rem - (t.clock - s.clock)) t < roundsLeft rem s := by
  have hle := roundsLeft_le (rem - (t.clock - s.clock)) t
  rcases step_clock_cases hm hstep with ⟨hw, -, ht, hclock⟩ | ⟨hw, hk, hclock⟩ | ⟨hr, ht, hclock⟩ | ⟨hr, m, hclock⟩
  · rw [roundsLeft_waiting hw, roundsLeft_running ht]
    omega
  · have hpos := hrem.resolve_right fun ⟨_, h⟩ => h hk
    rw [roundsLeft_waiting hw]
    omega
  · have hpos := hrem.resolve_right fun ⟨h, _⟩ => by cases hr.symm.trans h
    rw [roundsLeft_running hr, roundsLeft_halted ht]
    omega
  · have hpos := hrem.resolve_right fun ⟨h, _⟩ => by cases hr.symm.trans h
    rw [hcost] at hclock
    rw [roundsLeft_running hr]
    omega

/-- With rounds enough and every cost 1, a loop that does not end in Halted uses up its budget. -/
theorem runLoop_clock {fuel rem : Nat} {s t : State} (hcost : ∀ m, costIn s.params.cost m = 1)
    (hfuel : roundsLeft rem s ≤ fuel) (hrun : runLoop fuel rem s = .next t) (ht : t.mode ≠ .halted) :
    t.clock = s.clock + rem := by
  rcases runLoop_stops_or_steps rem s with hstop | ⟨hm, hrem, u, hstep, hround⟩
  · rw [runLoop_stop hstop] at hrun
    cases hrun
    obtain ⟨rfl, -⟩ := hstop.resolve_left ht
    rfl
  · obtain ⟨hle, hbudget, hlt⟩ := step_within_budget hcost hm hstep hrem
    obtain ⟨fuel, rfl⟩ := Nat.exists_eq_add_of_le' (Nat.one_le_of_lt (hlt.trans_le hfuel))
    rw [hround] at hrun
    have hrest := runLoop_clock (by rwa [step_params hstep]) (by omega) hrun ht
    omega
  termination_by fuel

/-- Settles O52: `run` allows itself rounds enough. -/
theorem runAdvancesExactlyItsBudget : Obligations.RunAdvancesExactlyItsBudget := fun n s _ hcost hrun ht =>
  runLoop_clock hcost ((roundsLeft_le n s).trans (by omega)) hrun ht

/-- Settles O53: induction on the rounds beyond those that `run` allows itself. -/
theorem runNeedsNoMoreRounds : Obligations.RunNeedsNoMoreRounds := by
  intro n fuel s hcost hfuel
  induction fuel, hfuel using Nat.le_induction with
  | base => rfl
  | succ fuel hle ih =>
    have henough : roundsLeft n s ≤ fuel := (roundsLeft_le n s).trans (by omega)
    rw [runLoop_succ_of_roundsLeft_le hcost henough, ih]

end Sys2Proof.Machine
end

section
/-!
PROOFS. Devices (60_exceptions.md R148 to R162): one drive's turn in a `Tick`, then the `Tick`, then transfers over many
`Tick`s; and the status word of a drive (R163).
-/

namespace Sys2Proof.Machine

open Claims

/-! ## One drive's turn (R151) -/

section
variable {s : State} {d : DriveId}

theorem State.driveTick_idle (h : (s.drive d).xfer = .idle) :
    s.driveTick d = s.setDrive d { s.drive d with idle := min ((s.drive d).idle + 1) Config.idleMax } := by
  simp only [State.driveTick, h]

theorem State.driveTick_due {dir : Dir} {t0 : Nat} {ma da : Word} (h : (s.drive d).xfer = .busy dir t0 ma da)
    (hdue : s.params.diskTransferCycles ≤ s.clock - t0) : s.driveTick d = s.complete d dir ma da := by
  simp only [State.driveTick, h, if_pos hdue]

theorem State.driveTick_inFlight {dir : Dir} {t0 : Nat} {ma da : Word} (h : (s.drive d).xfer = .busy dir t0 ma da)
    (hdue : s.clock - t0 < s.params.diskTransferCycles) : s.driveTick d = s := by
  simp only [State.driveTick, h, if_neg (Nat.not_le_of_lt hdue)]

end

/-! ## The two turns of a `Tick` -/

/-- The state in which drive `d` has its turn in the `Tick` from `s`. -/
def State.atTurn (s : State) : DriveId → State
  | .zero => s.clocked
  | .one => s.clocked.driveTick .zero

section
variable (s : State) (d : DriveId)

@[simp] theorem State.atTurn_drive : (s.atTurn d).drive d = s.drive d := by
  cases d with
  | zero => exact s.clocked_drive .zero
  | one => exact s.clocked.driveTick_drive_other .zero (e := .one) nofun

@[simp] theorem State.atTurn_clock : (s.atTurn d).clock = s.clock + 1 := by
  cases d with
  | zero => rfl
  | one => exact s.clocked.driveTick_clock .zero

@[simp] theorem State.atTurn_params : (s.atTurn d).params = s.params := by
  cases d with
  | zero => rfl
  | one => exact s.clocked.driveTick_params .zero

/-- After the `Tick` a drive's record is what its own turn left. -/
theorem State.tick_drive : s.tick.drive d = ((s.atTurn d).driveTick d).drive d := by
  cases d with
  | zero => exact (s.clocked.driveTick .zero).driveTick_drive_other .one (e := .zero) nofun
  | one => rfl

end

theorem State.tick_eq_atTurn_one (s : State) : s.tick = (s.atTurn .one).driveTick .one := rfl

theorem State.atTurn_one (s : State) : s.atTurn .one = (s.atTurn .zero).driveTick .zero := rfl

/-- A turn in which a due transfer completes (R160, R161). -/
theorem State.turn_of_completing {s : State} {d : DriveId} {dir : Dir} {ma da : Word}
    (h : Completing s d dir ma da) : (s.atTurn d).driveTick d = (s.atTurn d).complete d dir ma da := by
  obtain ⟨t0, hx, hdue⟩ := h
  exact State.driveTick_due (by rwa [State.atTurn_drive]) (by rwa [State.atTurn_params, State.atTurn_clock])

theorem due_iff_completing (s : State) (d : DriveId) : Due s d ↔ ∃ dir ma da, Completing s d dir ma da :=
  ⟨fun ⟨dir, t0, ma, da, h⟩ => ⟨dir, ma, da, t0, h⟩, fun ⟨dir, ma, da, t0, h⟩ => ⟨dir, t0, ma, da, h⟩⟩

/-- A turn with no transfer due leaves event slot and memory alone. -/
theorem State.turn_of_not_due {s : State} {d : DriveId} (h : ¬ Due s d) :
    ((s.atTurn d).driveTick d).ev = (s.atTurn d).ev ∧ ((s.atTurn d).driveTick d).mem = (s.atTurn d).mem := by
  rcases (s.atTurn d).driveTick_cases d with ⟨dir, t0, ma, da, hx, hdue, -⟩ | ⟨-, -, -, -, -, -, hturn⟩ | ⟨-, hturn⟩
  · rw [State.atTurn_drive] at hx
    rw [State.atTurn_params, State.atTurn_clock] at hdue
    exact absurd ⟨dir, t0, ma, da, hx, hdue⟩ h
  · rw [hturn]
    exact ⟨rfl, rfl⟩
  · rw [hturn]
    exact ⟨State.setDrive_ev _ _ _, State.setDrive_mem _ _ _⟩

/-- Settles O44: clock, core and keys by the laws of `Tick`; an idle drive counts in its own turn. -/
theorem tickCountsCyclesAndIdleTime : Obligations.TickCountsCyclesAndIdleTime := by
  refine fun s => ⟨s.tick_clock, s.tick_ip, fun r _ => State.reg_congr s.tick_regs r, ⟨s.tick_mode, s.tick_haltCause⟩,
    s.tick_keys, s.tick_params, fun d hidle => ?idle⟩
  rw [State.tick_drive, State.driveTick_idle (by rwa [State.atTurn_drive]), State.setDrive_drive_same,
    State.atTurn_drive]
  rfl

/-- Settles O45: a completion posts in its turn, and a turn without one leaves the slot alone; drive 1 comes last. -/
theorem theLastPostOfATickSurvives : Obligations.TheLastPostOfATickSurvives := by
  refine fun s => ⟨fun h1 => ?one, fun h0 h1 => ?zero, fun h0 h1 => ⟨?refresh, fun a _ => ?mem⟩⟩
  case one =>
    obtain ⟨dir, ma, da, hc⟩ := (due_iff_completing s .one).1 h1
    rw [State.tick_eq_atTurn_one, State.turn_of_completing hc, State.complete_ev]
    rfl
  case zero =>
    obtain ⟨dir, ma, da, hc⟩ := (due_iff_completing s .zero).1 h0
    rw [State.tick_eq_atTurn_one, (State.turn_of_not_due h1).1, State.atTurn_one, State.turn_of_completing hc,
      State.complete_ev]
    rfl
  case refresh =>
    rw [State.tick_eq_atTurn_one, (State.turn_of_not_due h1).1, State.atTurn_one, (State.turn_of_not_due h0).1]
    exact s.clocked_ev
  case mem =>
    refine State.readByte_congr ?_ a
    rw [State.tick_eq_atTurn_one, (State.turn_of_not_due h1).2, State.atTurn_one, (State.turn_of_not_due h0).2]
    rfl

/-! ## Completion (R39, R161) -/

/-- One completion moves its bytes and ends its transfer. -/
theorem State.copyDone_complete (s : State) (d : DriveId) (dir : Dir) (ma da : Word) :
    CopyDone dir ma da s.mem (s.complete d dir ma da).mem (s.drive d) ((s.complete d dir ma da).drive d) := by
  cases dir with
  | rd =>
    refine ⟨fun i hi => ?moved, fun a ha => ?kept, s.complete_rd_drive d ma da⟩
    case moved => rw [State.complete_rd_mem, State.copyIn_read s d ma da hi]
    case kept => rw [State.complete_rd_mem, State.copyIn_read_outside s d ma da a ha]
  | wr =>
    have hdrive := s.complete_wr_drive d ma da
    refine ⟨fun i hi => ?moved, fun a ha => ?kept, fun a => ?mem, ?record⟩
    case moved => rw [hdrive]; exact s.copyOut_read d ma da hi
    case kept => rw [hdrive]; exact s.copyOut_read_outside d ma da a ha
    case mem => rw [State.complete_wr_mem]
    case record => rw [hdrive, State.copyOut, State.setDrive_drive_same]

/-- A drive's completion in its turn, on the memory that it finds. -/
theorem State.copyDone_turn {s : State} {d : DriveId} {dir : Dir} {ma da : Word} (h : Completing s d dir ma da) :
    CopyDone dir ma da (s.atTurn d).mem ((s.atTurn d).driveTick d).mem (s.drive d) (s.tick.drive d) := by
  have hcopy := (s.atTurn d).copyDone_complete d dir ma da
  rwa [← State.turn_of_completing h, State.atTurn_drive, ← State.tick_drive] at hcopy

/-- Settles O46: each completion is made in its drive's turn; the memory that drive 1 finds is the one drive 0's turn
left. -/
theorem completionsMoveTheBytes : Obligations.CompletionsMoveTheBytes := by
  refine ⟨fun s d e dir ma da hc he hdue => ?one, fun s dir0 dir1 ma0 da0 ma1 da1 h0 h1 => ?both⟩
  case one =>
    have hcopy := State.copyDone_turn hc
    have hev : ((s.atTurn d).driveTick d).ev = ⟨diskFinished d, 0⟩ := by
      rw [State.turn_of_completing hc, State.complete_ev]
    obtain ⟨hevOther, hmemOther⟩ := State.turn_of_not_due hdue
    cases d with
    | zero =>
      cases e with
      | zero => exact absurd rfl he
      | one =>
        have hmem : s.tick.mem = ((s.atTurn .zero).driveTick .zero).mem := hmemOther
        exact ⟨by rw [hmem]; exact hcopy, hevOther.trans hev⟩
    | one =>
      cases e with
      | zero =>
        have hmem : (s.atTurn .one).mem = s.mem := hmemOther
        rw [hmem] at hcopy
        exact ⟨hcopy, hev⟩
      | one => exact absurd rfl he
  case both =>
    refine ⟨(s.atTurn .one).mem, State.copyDone_turn h0, State.copyDone_turn h1, ?event⟩
    rw [State.tick_eq_atTurn_one, State.turn_of_completing h1, State.complete_ev]
    rfl

/-! ## Many `Tick`s (R160) -/

/-- A transfer that is not due stays in flight. -/
theorem State.tick_xfer_inFlight {s : State} {d : DriveId} {dir : Dir} {t0 : Nat} {ma da : Word}
    (hx : (s.drive d).xfer = .busy dir t0 ma da) (h : s.clock + 1 - t0 < s.params.diskTransferCycles) :
    (s.tick.drive d).xfer = .busy dir t0 ma da := by
  rw [State.tick_drive, State.driveTick_inFlight (by rwa [State.atTurn_drive])
    (by rwa [State.atTurn_params, State.atTurn_clock]), State.atTurn_drive, hx]

theorem copyDone_xfer_idle {dir : Dir} {ma da : Word} {mem mem' : Memory} {r r' : Drive}
    (h : CopyDone dir ma da mem mem' r r') : r'.xfer = .idle := by
  cases dir with
  | rd => obtain ⟨-, -, hr⟩ := h; rw [hr]
  | wr => obtain ⟨-, -, -, hr⟩ := h; rw [hr]

theorem State.ticks_xfer_inFlight (k : Nat) {s : State} {d : DriveId} {dir : Dir} {t0 : Nat} {ma da : Word}
    (hx : (s.drive d).xfer = .busy dir t0 ma da) (h0 : t0 ≤ s.clock)
    (h : s.clock + k < t0 + s.params.diskTransferCycles) : ((s.ticks k).drive d).xfer = .busy dir t0 ma da := by
  induction k generalizing s with
  | zero => exact hx
  | succ k ih =>
    exact ih (State.tick_xfer_inFlight hx (by omega)) (by rw [State.tick_clock]; omega)
      (by rw [State.tick_clock, State.tick_params]; omega)

theorem State.ticks_succ (k : Nat) (s : State) : s.ticks (k + 1) = (s.ticks k).tick := by
  induction k generalizing s with
  | zero => rfl
  | succ k ih => exact ih s.tick

/-- Settles O48: in flight up to the last cycle, and the `Tick` after it is due. -/
theorem transferEndsExactlyOnTime : Obligations.TransferEndsExactlyOnTime := by
  refine fun s d dir t0 ma da hx h0 hlt => ⟨fun k hk => State.ticks_xfer_inFlight k hx h0 hk, ?ends⟩
  obtain ⟨k, hk⟩ : ∃ k, t0 + s.params.diskTransferCycles - s.clock = k + 1 := ⟨_, (Nat.succ_pred (by omega)).symm⟩
  have hflight := State.ticks_xfer_inFlight k hx h0 (by omega)
  have hdone : Completing (s.ticks k) d dir ma da :=
    ⟨t0, hflight, by rw [State.ticks_clock, State.ticks_params]; omega⟩
  rw [hk, State.ticks_succ]
  exact copyDone_xfer_idle (State.copyDone_turn hdone)

/-! ## The status word (R163) -/

theorem hostCall_diskStats {s : State} {n : Nat} {d : DriveId} (hd : driveOfIndex n = some d) :
    hostCall (.diskStats n) s = .next (.status (s.diskStats d), s) := by
  rw [hostCall, onDrive_of_some hd]

theorem State.diskStats_toNat {s : State} {d : DriveId} (h : (s.drive d).idle ≤ 2147483647) :
    (s.diskStats d).toNat = (if (s.drive d).dirty then 2147483648 else 0) + (s.drive d).idle := by
  rw [State.diskStats, BitVec.toNat_ofNat]
  split <;> omega

/-- Settles O60: the two parts do not overlap. -/
theorem diskStatsPacksDirtyAndIdle : Obligations.DiskStatsPacksDirtyAndIdle := by
  refine fun s n d hd hidle => ⟨_, hostCall_diskStats hd, ?dirty, ?idle⟩
  case dirty =>
    have hbit : (s.diskStats d).getLsbD 31 = (s.diskStats d).msb := rfl
    rw [hbit, BitVec.msb_eq_decide, State.diskStats_toNat hidle]
    cases (s.drive d).dirty <;> simp
    omega
  case idle =>
    rw [BitVec.extractLsb'_toNat, State.diskStats_toNat hidle]
    cases (s.drive d).dirty <;> simp <;> omega

end Sys2Proof.Machine
end

section
/-!
PROOFS. The invariant of the machine (Safety.lean), kept by each operation of the state, by a `Tick`, by an
instruction, by a step, and so by every host operation; and the reset states, which meet it.
-/

namespace Sys2Proof.Machine

open Claims

/-! ## Drive records -/

/-- An Idle drive asks for a canonical image and a bounded counter only. -/
theorem DriveOk.of_idle {cycles clock : Nat} {r : Drive} (himage : r.image.wf Config.imageBytes)
    (hidle : r.idle ≤ Config.idleMax) (hx : r.xfer = .idle) : DriveOk cycles clock r where
  image_wf := himage
  idle_le := hidle
  busy := fun dir started ma da h => by rw [hx] at h; cases h

/-- A drive's turn in a `Tick` keeps its record: a transfer that stays in flight is not due at the new clock. -/
theorem DriveOk.turn {s : State} {d : DriveId} {clock : Nat}
    (h : DriveOk s.params.diskTransferCycles clock (s.drive d)) (hclock : s.clock = clock + 1) :
    DriveOk s.params.diskTransferCycles s.clock ((s.driveTick d).drive d) := by
  rcases s.driveTick_cases d with ⟨dir, t0, ma, da, -, -, hturn⟩ | ⟨dir, t0, ma, da, hx, hdue, hturn⟩ | ⟨hx, hturn⟩ <;>
    rw [hturn]
  · cases dir with
    | rd =>
      rw [State.complete_rd_drive]
      exact .of_idle h.image_wf (Nat.zero_le _) rfl
    | wr =>
      rw [State.complete_wr_drive]
      exact .of_idle (State.copyOut_image_wf h.image_wf ma da) (Nat.zero_le _) rfl
  · obtain ⟨hidle, hpresent, hle, -, hro⟩ := h.busy dir t0 ma da hx
    refine ⟨h.image_wf, h.idle_le, fun dir' t0' ma' da' hx' => ?_⟩
    cases hx.symm.trans hx'
    exact ⟨hidle, hpresent, by omega, hdue, hro⟩
  · rw [State.setDrive_drive_same]
    exact .of_idle h.image_wf (Nat.min_le_right _ _) hx

/-- An accepted request leaves its drive in order: the transfer starts now, and takes at least one cycle (R5). -/
theorem DriveOk.start {cycles clock : Nat} {r : Drive} (h : DriveOk cycles clock r) (hcycles : 1 ≤ cycles)
    (hbound : r.present = true) {dir : Dir} (hwritable : dir = .wr → r.readonly = false) (ma da : Word) :
    DriveOk cycles clock { r with xfer := .busy dir clock ma da, idle := 0 } where
  image_wf := h.image_wf
  idle_le := Nat.zero_le _
  busy := fun dir' t0 ma' da' hx => by
    cases hx
    exact ⟨rfl, hbound, Nat.le_refl _, by omega, hwritable⟩

theorem State.Inv.drive_ok {s : State} (h : s.Inv) (d : DriveId) :
    DriveOk s.params.diskTransferCycles s.clock (s.drive d) := by
  cases d with
  | zero => exact h.drive0_ok
  | one => exact h.drive1_ok

/-! ## The operations of the state -/

section
variable {s t : State}

/-- Inside a frame only memory matters. -/
theorem State.Inv.of_frame (h : s.Inv) {rs : List Reg} {ms : List Word} (hframe : Frame s t rs ms)
    (hmem : t.mem.wf Config.memSize) : t.Inv := by
  obtain ⟨-, -, ⟨hmode, hcause⟩, hev, hclock, hdrive, hkeys, hparams⟩ := hframe
  have hdrive0 : t.drive0 = s.drive0 := hdrive .zero
  have hdrive1 : t.drive1 = s.drive1 := hdrive .one
  constructor
  case mem_wf => exact hmem
  case halt_iff => rw [hmode, hcause]; exact h.halt_iff
  case ev_empty => rw [hev]; exact h.ev_empty
  case keys_wf => rw [hkeys]; exact h.keys_wf
  case drive0_ok => rw [hparams, hclock, hdrive0]; exact h.drive0_ok
  case drive1_ok => rw [hparams, hclock, hdrive1]; exact h.drive1_ok
  case params_ok => rw [hparams]; exact h.params_ok

theorem State.Inv.setDrive (h : s.Inv) {d : DriveId} {r : Drive}
    (hr : DriveOk s.params.diskTransferCycles s.clock r) : (s.setDrive d r).Inv := by
  cases d with
  | zero => exact { h with drive0_ok := hr }
  | one => exact { h with drive1_ok := hr }

theorem State.Inv.post (h : s.Inv) {k : EventKind} (hk : k ≠ .none) (p : Word) : (s.post k p).Inv :=
  { h with ev_empty := fun hk' => absurd hk' hk }

theorem State.Inv.consume (h : s.Inv) : s.consume.Inv :=
  { h with ev_empty := fun _ => rfl }

/-- A change between the modes that are not Halted (10_state.md R16). -/
theorem State.Inv.setMode (h : s.Inv) (hs : s.mode ≠ .halted) {m : Mode} (hm : m ≠ .halted) :
    State.Inv { s with mode := m } :=
  { h with halt_iff := ⟨fun hm' => absurd hm' hm, fun hc => absurd (h.halt_iff.2 hc) hs⟩ }

theorem State.Inv.wakeUp (h : s.Inv) (hs : s.mode ≠ .halted) : s.wakeUp.Inv :=
  State.Inv.setMode h.consume hs nofun

theorem State.Inv.stop (h : s.Inv) {c : HaltCause} (hc : c ≠ .none) : (s.stop c).Inv :=
  { h with halt_iff := ⟨fun _ => hc, fun _ => rfl⟩ }

theorem State.Inv.setKeys (h : s.Inv) {ks : List Word} (hks : ks.Pairwise (fun k k' => k.toNat < k'.toNat)) :
    State.Inv { s with keys := ks } :=
  { h with keys_wf := hks }

end

theorem diskFinished_ne_none (d : DriveId) : diskFinished d ≠ .none := by
  cases d <;> exact nofun

theorem haltCauseOf_ne_none (c : IllegalCause) : haltCauseOf c ≠ .none := by
  cases c <;> exact nofun

/-! ## A `Tick` -/

theorem State.driveTick_mem_wf {s : State} (h : s.mem.wf Config.memSize) (d : DriveId) :
    (s.driveTick d).mem.wf Config.memSize := by
  rcases s.driveTick_cases d with ⟨dir, t0, ma, da, -, -, hturn⟩ | ⟨-, -, -, -, -, -, hturn⟩ | ⟨-, hturn⟩ <;> rw [hturn]
  · cases dir with
    | rd => rw [State.complete_rd_mem]; exact State.copyIn_mem_wf h d ma da
    | wr => rw [State.complete_wr_mem]; exact h
  · exact h
  · rw [State.setDrive_mem]; exact h

/-- A drive's turn keeps the slot in order: it posts a disk-finished event or nothing. -/
theorem State.driveTick_ev_empty {s : State} (h : s.ev.kind = .none → s.ev.payload = 0) (d : DriveId) :
    (s.driveTick d).ev.kind = .none → (s.driveTick d).ev.payload = 0 := by
  rcases s.driveTick_cases d with ⟨dir, t0, ma, da, -, -, hturn⟩ | ⟨-, -, -, -, -, -, hturn⟩ | ⟨-, hturn⟩ <;> rw [hturn]
  · rw [State.complete_ev]; exact fun _ => rfl
  · exact h
  · rw [State.setDrive_ev]; exact h

theorem State.clocked_ev_empty {s : State} (h : s.ev.kind = .none → s.ev.payload = 0) :
    s.clocked.ev.kind = .none → s.clocked.ev.payload = 0 := by
  rw [State.clocked_ev]
  split
  · exact fun _ => rfl
  · exact h

/-- A `Tick` keeps a drive record in order. -/
theorem State.Inv.tick_drive_ok {s : State} (h : s.Inv) (d : DriveId) :
    DriveOk s.tick.params.diskTransferCycles s.tick.clock (s.tick.drive d) := by
  have hbefore : DriveOk (s.atTurn d).params.diskTransferCycles s.clock ((s.atTurn d).drive d) := by
    rw [State.atTurn_params, State.atTurn_drive]
    exact h.drive_ok d
  have hafter := hbefore.turn (s.atTurn_clock d)
  rwa [State.atTurn_params, State.atTurn_clock, ← State.tick_drive, ← State.tick_params, ← State.tick_clock] at hafter

theorem State.Inv.tick {s : State} (h : s.Inv) : s.tick.Inv where
  mem_wf := State.driveTick_mem_wf (State.driveTick_mem_wf (s := s.clocked) h.mem_wf _) _
  halt_iff := by rw [State.tick_mode, State.tick_haltCause]; exact h.halt_iff
  ev_empty := State.driveTick_ev_empty (State.driveTick_ev_empty (State.clocked_ev_empty h.ev_empty) _) _
  keys_wf := by rw [State.tick_keys]; exact h.keys_wf
  drive0_ok := h.tick_drive_ok .zero
  drive1_ok := h.tick_drive_ok .one
  params_ok := by rw [State.tick_params]; exact h.params_ok

theorem State.Inv.ticks {s : State} (h : s.Inv) (c : Nat) : (s.ticks c).Inv :=
  State.ticks_induct (P := State.Inv) (fun _ => State.Inv.tick) c s h

/-! ## An instruction and a step -/

/-- Each effect of an instruction keeps the invariant of a core that is not halted. -/
theorem ExecEffect.inv {i : Instr} {s t : State} (he : ExecEffect i s t) (h : s.Inv) (hm : s.mode ≠ .halted) :
    t.Inv := by
  cases he with
  | core stored loads frame mem_wf => exact h.of_frame frame (mem_wf h.mem_wf)
  | halt => exact h.stop nofun
  | consume => exact h.consume
  | block => exact h.setMode hm nofun
  | reject d r => exact h.post (diskFinished_ne_none d) r.code
  | start d dir ma da hi bound idle writable =>
    exact h.setDrive ((h.drive_ok d).start h.params_ok.transfer_pos bound writable ma da)

theorem step_keeps_inv {s t : State} (h : s.Inv) (hstep : step s = .next t) : t.Inv := by
  rcases step_cases hstep with ⟨-, rfl⟩ | ⟨hm, -, rfl⟩ | ⟨-, -, rfl⟩ | ⟨-, e, -, rfl⟩ | ⟨hm, i, n, u, -, hexec, rfl⟩
  · exact h
  · exact h.wakeUp (by rw [hm]; exact nofun)
  · exact h.tick
  · exact h.stop (haltCauseOf_ne_none e)
  · have hfetched : (s.setIp (s.nextIp n)).Inv := h.of_frame (s.frame_setIp _) h.mem_wf
    have hrunning : (s.setIp (s.nextIp n)).mode ≠ .halted := by rw [State.setIp_mode, hm]; exact nofun
    exact ((exec_effect hexec).inv hfetched hrunning).ticks _

/-- Settles O49: the five things a step can do. -/
theorem stepKeepsTheInvariant : Obligations.StepKeepsTheInvariant := fun _ _ => step_keeps_inv

/-! ## Reset states and host operations -/

theorem Drive.reset_ok (cycles clock : Nat) {image : Memory} (h : image.wf Config.imageBytes) :
    DriveOk cycles clock { Drive.reset with image := image } :=
  .of_idle h (Nat.le_refl _) rfl

theorem inv_reset_of_params {p : Config.Params} (h : ParamsOk p) :
    State.Inv { State.reset with params := p, mem := p.bootImage } where
  mem_wf := h.boot_wf
  halt_iff := ⟨nofun, fun hc => absurd rfl hc⟩
  ev_empty := fun _ => rfl
  keys_wf := List.Pairwise.nil
  drive0_ok := Drive.reset_ok _ _ (Memory.nil_wf _)
  drive1_ok := Drive.reset_ok _ _ (Memory.nil_wf _)
  params_ok := h

theorem resetScreen_fits : Config.screen.fits := by
  unfold Config.screen
  split
  · assumption
  · decide

theorem resetParams_ok : ParamsOk Config.resetParams where
  transfer_pos := Config.diskTransferCycles.pos
  refresh_pos := Config.refreshPeriod.pos
  screen_fits := resetScreen_fits
  boot_wf := Memory.nil_wf _
  cost_pos := fun _ he => absurd he List.not_mem_nil

/-- Settles O50: State.reset is the reset state of its own parameters, which are within R5. -/
theorem resetMeetsTheInvariant : Obligations.ResetMeetsTheInvariant :=
  ⟨inv_reset_of_params resetParams_ok, fun _ => inv_reset_of_params⟩

theorem State.Inv.initializeMachine {s : State} (h : s.Inv) : s.initializeMachine.Inv :=
  inv_reset_of_params h.params_ok

theorem State.Inv.resetMachine {s : State} (h : s.Inv) : s.resetMachine.Inv :=
  { h.initializeMachine with
    drive0_ok := Drive.reset_ok _ _ h.drive0_ok.image_wf
    drive1_ok := Drive.reset_ok _ _ h.drive1_ok.image_wf }

/-- A record that is unbound has no transfer in flight (R176). -/
theorem DriveOk.xfer_idle_of_unbound {cycles clock : Nat} {r : Drive} (h : DriveOk cycles clock r)
    (hp : r.present = false) : r.xfer = .idle := by
  cases hx : r.xfer with
  | idle => rfl
  | busy dir t0 ma da =>
    obtain ⟨-, hbound, -⟩ := h.busy dir t0 ma da hx
    rw [hp] at hbound
    cases hbound

/-- Settles O51: the things a host operation can do; a `run` keeps what every step keeps. -/
theorem hostCallsKeepTheInvariant : Obligations.HostCallsKeepTheInvariant := by
  intro c s t r h hcall
  rcases hostCall_cases hcall with rfl | rfl | rfl | ⟨n, -, hrun⟩ | ⟨code, hup, rfl⟩ | ⟨code, -, rfl⟩ |
    ⟨d, ro, hx, rfl⟩ | ⟨d, hx, rfl⟩ | ⟨d, m, hp, hm, rfl⟩
  · exact h
  · exact h.initializeMachine
  · exact h.resetMachine
  · exact run_keeps (fun _ _ => step_keeps_inv) h hrun
  · exact (h.setKeys (insertKey_sorted code hup h.keys_wf)).post (k := .keyDown) nofun code
  · exact (h.setKeys (h.keys_wf.filter _)).post (k := .keyUp) nofun code
  · have hok := h.drive_ok d
    exact h.setDrive (.of_idle hok.image_wf hok.idle_le hx)
  · have hok := h.drive_ok d
    exact h.setDrive (.of_idle hok.image_wf hok.idle_le hx)
  · have hok := h.drive_ok d
    exact h.setDrive (.of_idle hm hok.idle_le (hok.xfer_idle_of_unbound hp))

end Sys2Proof.Machine
end

section
/-!
PROOFS. Host operations: reset (60_exceptions.md R171), a key pressed and released (R172, R173), binding a drive
(R175, R176).
-/

namespace Sys2Proof.Machine

open Claims

/-! ## Reset -/

/-- Settles O55: both operations write every field; they differ in the images. -/
theorem resetRestoresTheInitialState : Obligations.ResetRestoresTheInitialState := by
  rintro c s (rfl | rfl)
  · refine ⟨s.initializeMachine, rfl, fun r => ?_, rfl, rfl, rfl, rfl, rfl, rfl, rfl, rfl, fun d => ?_⟩
    · cases r <;> rfl
    · cases d <;> exact ⟨rfl, rfl, rfl, rfl, rfl, fun _ => rfl⟩
  · refine ⟨s.resetMachine, rfl, fun r => ?_, rfl, rfl, rfl, rfl, rfl, rfl, rfl, rfl, fun d => ?_⟩
    · cases r <;> rfl
    · cases d <;> exact ⟨rfl, rfl, rfl, rfl, rfl, fun _ => rfl⟩

/-! ## Keys -/

theorem filter_ne_of_not_mem {code : Word} {ks : List Word} (h : code ∉ ks) :
    ks.filter (fun k => k ≠ code) = ks :=
  List.filter_eq_self.2 fun _ hk => decide_eq_true fun he => h (he ▸ hk)

/-- Releasing a key that was up before it was pressed gives the old list back. -/
theorem filter_insertKey {code : Word} {ks : List Word} (h : code ∉ ks) :
    (insertKey code ks).filter (fun k => k ≠ code) = ks := by
  induction ks with
  | nil => simp [insertKey]
  | cons q ks ih =>
    have hq : q ≠ code := (List.ne_of_not_mem_cons h).symm
    rw [insertKey]
    split
    · rw [List.filter_cons_of_neg (by simp), filter_ne_of_not_mem h]
    · rw [List.filter_cons_of_pos (by simpa using hq), ih (List.not_mem_of_not_mem_cons h)]

/-- Settles O57: the first press makes the key a pressed one, so a second changes nothing; the release posts over the
press. -/
theorem heldKeyIsReportedOnce : Obligations.HeldKeyIsReportedOnce := by
  intro s code hup
  have hdown := State.keyDown_of_not_mem hup
  have hmem : code ∈ (s.keyDown code).keys := by
    rw [hdown]
    exact (mem_insertKey code s.keys code).2 (.inl rfl)
  refine ⟨State.keyDown_of_mem hmem, by rw [hdown], ?release⟩
  rw [State.keyUp_of_mem hmem, hdown]
  simp only [filter_insertKey hup]
  rfl

/-! ## Binding a drive -/

theorem State.insertDisk_of_idle {s : State} {d : DriveId} (h : (s.drive d).xfer = .idle) (ro : Bool) :
    s.insertDisk d ro = some (s.setDrive d { s.drive d with present := true, dirty := false, readonly := ro }) := by
  rw [State.insertDisk, if_neg (not_not.2 h)]

theorem State.removeDisk_of_idle {s : State} {d : DriveId} (h : (s.drive d).xfer = .idle) :
    s.removeDisk d = some (s.setDrive d { s.drive d with present := false }) := by
  rw [State.removeDisk, if_neg (not_not.2 h)]

/-- What the update of one drive's record leaves unchanged. -/
theorem State.setDrive_frame (s : State) (d : DriveId) (r : Drive) :
    (s.setDrive d r).drive d = r ∧ (∀ e, e ≠ d → (s.setDrive d r).drive e = s.drive e) ∧
    (s.setDrive d r).ev = s.ev ∧ (s.setDrive d r).mem = s.mem ∧ (s.setDrive d r).regs = s.regs ∧
    (s.setDrive d r).ip = s.ip ∧ (s.setDrive d r).clock = s.clock ∧ (s.setDrive d r).keys = s.keys ∧
    RunStateKept s (s.setDrive d r) :=
  ⟨s.setDrive_drive_same d r, fun _ he => s.setDrive_drive_other r he, s.setDrive_ev d r, s.setDrive_mem d r,
    s.setDrive_regs d r, s.setDrive_ip d r, s.setDrive_clock d r, s.setDrive_keys d r, s.setDrive_mode d r,
    s.setDrive_haltCause d r⟩

/-- Settles O59: on an Idle drive both are one update of its record. -/
theorem insertAndRemoveBindTheDrive : Obligations.InsertAndRemoveBindTheDrive := by
  refine fun s n d ro hd hidle => ⟨⟨_, ?insert, s.setDrive_frame d _⟩, ⟨_, ?remove, s.setDrive_frame d _⟩⟩
  case insert => rw [hostCall_insertDisk hd, State.insertDisk_of_idle hidle, replyTo]
  case remove => rw [hostCall_removeDisk hd, State.removeDisk_of_idle hidle, replyTo]

end Sys2Proof.Machine
end
